-- ==== Sys2Proof/Word.lean ====
section
/-! DEFINITION. Words, channel and strand numbers, and the banks that hold one value per strand or per channel. -/

namespace Sys2Proof

/-- One byte. -/
abbrev Byte := BitVec 8

/-- A 32-bit quantity that wraps: sequence numbers, encoder counts, part times (00_scope, Conventions). -/
abbrev Word32 := BitVec 32

/-- The 8 bytes of a beat: byte `i` of the beat (at address + i) is bits 8i to 8i + 7. -/
abbrev Word64 := BitVec 64

/-- A channel number, 4 × strand + face (00_scope, Terms). -/
abbrev Chan := Fin 16

/-- A strand number. -/
abbrev Strand := Fin 4

/-- The strand of a channel: R2, channel = 4 × strand + face. -/
def strandOf (c : Chan) : Strand := ⟨c.val / 4, by omega⟩

/-- The face of a channel: 0 OUTER, 1 INNER, 2 LEFT, 3 RIGHT. -/
def faceOf (c : Chan) : Fin 4 := ⟨c.val % 4, by omega⟩

/-- The channel numbers in ascending order. -/
def allChans : List Chan := [0, 1, 2, 3, 4, 5, 6, 7, 8, 9, 10, 11, 12, 13, 14, 15]

/-- The strand numbers in ascending order. -/
def allStrands : List Strand := [0, 1, 2, 3]

/-- A sparse store: values by key, in rising order of keys, no value equal to what an unlisted key reads as. -/
abbrev Store (α : Type) := List (Nat × α)

/-- One value for each strand (or each face of a strand). -/
structure Bank4 (α : Type) where
  b0 : α
  b1 : α
  b2 : α
  b3 : α
  deriving DecidableEq, Repr

/-- The same value in all four places. -/
def Bank4.all {α : Type} (v : α) : Bank4 α := ⟨v, v, v, v⟩

/-- The value in place `i`. -/
def Bank4.get {α : Type} (b : Bank4 α) (i : Fin 4) : α :=
  match i with
  | 0 => b.b0
  | 1 => b.b1
  | 2 => b.b2
  | 3 => b.b3

/-- The bank with place `i` replaced. -/
def Bank4.set {α : Type} (b : Bank4 α) (i : Fin 4) (v : α) : Bank4 α :=
  match i with
  | 0 => { b with b0 := v }
  | 1 => { b with b1 := v }
  | 2 => { b with b2 := v }
  | 3 => { b with b3 := v }

/-- Each value mapped. -/
def Bank4.map {α β : Type} (f : α → β) (b : Bank4 α) : Bank4 β := ⟨f b.b0, f b.b1, f b.b2, f b.b3⟩

/-- The bank whose place `i` holds `f i`. -/
def Bank4.ofFn {α : Type} (f : Fin 4 → α) : Bank4 α := ⟨f 0, f 1, f 2, f 3⟩

/-- One value for each channel: by strand, then by face. -/
structure Bank16 (α : Type) where
  strands : Bank4 (Bank4 α)
  deriving DecidableEq, Repr

/-- The same value for every channel. -/
def Bank16.all {α : Type} (v : α) : Bank16 α := ⟨Bank4.all (Bank4.all v)⟩

/-- The value of channel `c`. -/
def Bank16.get {α : Type} (b : Bank16 α) (c : Chan) : α := (b.strands.get (strandOf c)).get (faceOf c)

/-- The bank with channel `c`'s value replaced. -/
def Bank16.set {α : Type} (b : Bank16 α) (c : Chan) (v : α) : Bank16 α :=
  ⟨b.strands.set (strandOf c) ((b.strands.get (strandOf c)).set (faceOf c) v)⟩

/-- Each value mapped. -/
def Bank16.map {α β : Type} (f : α → β) (b : Bank16 α) : Bank16 β := ⟨b.strands.map (Bank4.map f)⟩

/-- The bank whose place for channel `4 i + j` holds `f` of that channel. -/
def Bank16.ofFn {α : Type} (f : Chan → α) : Bank16 α :=
  ⟨⟨⟨f 0, f 1, f 2, f 3⟩, ⟨f 4, f 5, f 6, f 7⟩, ⟨f 8, f 9, f 10, f 11⟩, ⟨f 12, f 13, f 14, f 15⟩⟩⟩

/-- The values in ascending order of channel. -/
def Bank16.toList {α : Type} (b : Bank16 α) : List α := allChans.map b.get

end Sys2Proof
end

