-- ==== Sys2Proof/Config.lean ====
section
/-! DEFINITION. What an implementation fixes, and the free values: constants without a body. -/

namespace Sys2Proof

/-- The revision byte of the start-up record (R190, R198): the manual names it and gives no value. A free value (log 11). -/
opaque Config.revision : Byte

/-- The rank by which a command's delivery reaches the channels of its mask, at the `n`-th delivery: the manual gives
no order among channels ("either may enter the record queue first", R111, R130). A free value (log 12). -/
opaque Config.deliveryRank : Nat → Nat → Nat

end Sys2Proof
end

