-- ==== Sys2Proof/Machine/Bits.lean ====
section
/-! DEFINITION. Saturation, wrapping differences, byte order and sparse stores. -/

namespace Sys2Proof.Machine

/-- A 16-bit quantity saturating at 65535 (00_scope, Conventions). -/
def sat16 (n : Nat) : Nat := min n 65535

/-- A quantity saturating at 4,294,967,295. -/
def sat32 (n : Nat) : Nat := min n 4294967295

/-- (a − b) mod 2^32 (00_scope, Conventions). -/
def distance (a b : Word32) : Nat := (a - b).toNat

/-- (a − b) mod 2^32 lies in 0 to 2^31 − 1: `a` is at `b` or ahead of it. -/
def atOrAhead (a b : Word32) : Bool := decide (distance a b < 2147483648)

/-- `a` is ahead of `b`: the difference lies in 1 to 2^31 − 1. -/
def ahead (a b : Word32) : Bool := atOrAhead a b && decide (distance a b ≠ 0)

/-- `a` is behind `b`: the difference lies in 2^31 to 2^32 − 1. -/
def behind (a b : Word32) : Bool := !atOrAhead a b

/-- The `n` bytes of `v`, least significant at the lowest address (R192). -/
def leBytes : Nat → Nat → List Byte
  | 0, _ => []
  | n + 1, v => BitVec.ofNat 8 v :: leBytes n (v / 256)

/-- The integer that bytes form, least significant first (R193). -/
def leNat : List Byte → Nat
  | [] => 0
  | b :: bs => b.toNat + 256 * leNat bs

/-- `n` zero bytes. -/
def zeros (n : Nat) : List Byte := List.replicate n 0

/-- Byte `i` of a beat's data. -/
def byteOf (w : Word64) (i : Nat) : Byte := w.extractLsb' (8 * i) 8

/-- The beat whose bytes, from the lowest address, are `bs`. -/
def beatOf (bs : List Byte) : Word64 := BitVec.ofNat 64 (leNat bs)

/-- What key `k` holds, `d` where it is not listed. -/
def readStore {α : Type} (d : α) (m : Store α) (k : Nat) : α :=
  match m with
  | [] => d
  | (j, v) :: rest => if j = k then v else readStore d rest k

/-- The store with `k` listed as `v`, in its place by key. -/
def putStore {α : Type} (m : Store α) (k : Nat) (v : α) : Store α :=
  match m with
  | [] => [(k, v)]
  | (j, w) :: rest =>
    if k < j then (k, v) :: (j, w) :: rest
    else if j = k then (k, v) :: rest
    else (j, w) :: putStore rest k v

/-- The store with `k` unlisted. -/
def dropStore {α : Type} (m : Store α) (k : Nat) : Store α :=
  match m with
  | [] => []
  | (j, w) :: rest => if j = k then rest else (j, w) :: dropStore rest k

/-- The store after `v` is written at `k`: writing what an unlisted key reads as unlists it. -/
def writeStore {α : Type} [DecidableEq α] (d : α) (m : Store α) (k : Nat) (v : α) : Store α :=
  if v = d then dropStore m k else putStore m k v

/-- Keys from `lo` upward, strictly rising, and no value equal to `d`. -/
def storeFrom {α : Type} [DecidableEq α] (d : α) (lo : Nat) : Store α → Bool
  | [] => true
  | (j, v) :: rest => decide (lo ≤ j) && decide (v ≠ d) && storeFrom d (j + 1) rest

/-- The canonical form of a store. -/
def wfStore {α : Type} [DecidableEq α] (d : α) (m : Store α) : Bool := storeFrom d 0 m

/-- The store that holds `f k` at each key from `lo` to `lo + n − 1` and `d` elsewhere. -/
def storeOfFn {α : Type} [DecidableEq α] (d : α) (f : Nat → α) (lo : Nat) : Nat → Store α
  | 0 => []
  | n + 1 => if f lo = d then storeOfFn d f (lo + 1) n else (lo, f lo) :: storeOfFn d f (lo + 1) n

/-- A byte merged under its enable: R7, R172. -/
def mergeByte (m : Store Byte) (k : Nat) (enabled : Bool) (b : Byte) : Store Byte :=
  if enabled then writeStore 0 m k b else m

/-- A beat at key `k` merged byte by byte, from byte `8 - n` on, where its enable is set and `allowed` holds of the key. -/
def mergeBeat (allowed : Nat → Bool) (k : Nat) (data : Word64) (enables : BitVec 8) : Nat → Store Byte → Store Byte
  | 0, m => m
  | n + 1, m =>
    mergeBeat allowed k data enables n
      (mergeByte m (k + (7 - n)) (enables.getLsbD (7 - n) && allowed (k + (7 - n))) (byteOf data (7 - n)))

/-- The `n`-byte field at key `k` of a store of bytes (R193). -/
def fieldAt (m : Store Byte) (k : Nat) : Nat → Nat
  | 0 => 0
  | n + 1 => (readStore 0 m k).toNat + 256 * fieldAt m (k + 1) n

end Sys2Proof.Machine
end

