-- ==== Sys2Proof/Machine/Layout.lean ====
section
/-! DEFINITION. Where the part's regions and words lie (R196), and the start-up writes. -/

namespace Sys2Proof.Machine

/-- R171: the setup block lies at 128 MiB × n. -/
def setupBase (strap : BitVec 4) : Nat := 134217728 * strap.toNat

/-- R171: the setup block's 16 KiB. -/
def setupSize : Nat := 16384

/-- R196: the byte at `offset` from the setup block's base lies in a host-written region. -/
def hostWritten (offset : Nat) : Bool :=
  decide (offset < 0x148) || (decide (0x200 ≤ offset) && decide (offset < 0x300)) ||
    (decide (0x400 ≤ offset) && decide (offset < 0x1000))

/-- R196: the command word. -/
def commandWordAt : Nat := 0x140

/-- R196: the command status word. -/
def commandStatusAt : Nat := 0x2000

/-- R196: the attention summary word. -/
def attentionAt : Nat := 0x2008

/-- R196: the ring index word. -/
def ringIndexAt : Nat := 0x2010

/-- R196: the condition word numbered `i`: channel `i`, or the part-wide word for 16. -/
def conditionAt (i : Nat) : Nat := 0x2040 + 8 * i

/-- R196: the start-up record. -/
def startUpAt : Nat := 0x2100

/-- R196: the status block numbered `i`: channel `i`, or the part-wide block for 16. -/
def statusBlockAt (i : Nat) : Nat := 0x2400 + 64 * i

/-- R196: the strand section of strand `s`. -/
def strandSectionAt (s : Nat) : Nat := 0x200 + 64 * s

/-- R196: the channel section of channel `c`. -/
def channelSectionAt (c : Nat) : Nat := 0x400 + 64 * c

/-- R196: entry `e` of profile table `p`. -/
def profileAt (p e : Nat) : Nat := 0x800 + 512 * p + 32 * e

/-- R196: the part-wide section. -/
def partSectionAt : Nat := 0x100

/-- Causes of the start-up record (R190, R198). -/
inductive StartUpCause where
  | powerOn
  | resetLine
  | command
  deriving DecidableEq, Repr

/-- R198: the code of a cause. -/
def causeCode : StartUpCause → Nat
  | .powerOn => 1
  | .resetLine => 2
  | .command => 3

/-- R190, R198: the 32 bytes of the start-up record. -/
def startUpRecord (cause : StartUpCause) (strap : BitVec 4) (resets : Nat) : List Byte :=
  leBytes 1 (causeCode cause) ++ leBytes 1 strap.toNat ++ leBytes 2 (sat16 resets) ++ leBytes 2 0x0D16 ++
    [Config.revision, 0] ++ leBytes 2 16 ++ leBytes 2 1024 ++ leBytes 1 32 ++ leBytes 1 64 ++ leBytes 1 8 ++ zeros 17

/-- R198: a condition word carrying `latched` in bytes 0 and 1. -/
def conditionWord (latched : BitVec 16) : List Byte := leBytes 2 latched.toNat ++ zeros 6

/-- R185: the 17 condition words with the empty set, in ascending address order. -/
def emptyConditionWrites (strap : BitVec 4) : List (Nat × List Byte) :=
  (List.range 17).map fun i => (setupBase strap + conditionAt i, conditionWord 0)

/-- R190, R185: what the status unit writes on leaving power-on, the start-up record first (log 10). -/
def powerOnWrites (strap : BitVec 4) : List (Nat × List Byte) :=
  (setupBase strap + startUpAt, startUpRecord .powerOn strap 0) :: emptyConditionWrites strap

end Sys2Proof.Machine
end

