-- ==== Sys2Proof/Syntax.lean ====
section
/-! DEFINITION. The commands of the part: one constructor of `Instr` for each row of spec/opcode_table.json. -/

namespace Sys2Proof

/-- The status of a memory-side response (section 9.1). -/
inductive RespStatus where
  | ok
  | error
  deriving DecidableEq, Repr

/-- One beat of a write: 8 bytes and a byte-enable mask of 8 flags (00_scope, Conventions). -/
structure Beat where
  data : Word64
  enables : BitVec 8
  deriving DecidableEq, Repr

/-- The commands. Each is one step of the part, whole and indivisible (95_what_each_step_holds). -/
inductive Instr where
  /-- POWER_ON, R37: the part leaves power-on, reading `straps` on SB[3:0]. -/
  | powerOn (straps : BitVec 4)
  /-- RESET_LINE_ASSERT, R169. -/
  | resetLineAssert
  /-- RESET_LINE_RELEASE, R183: `straps` is what SB[3:0] read. -/
  | resetLineRelease (straps : BitVec 4)
  /-- SYSTEM_WRITE, R159: the system side presents a write while the MF lines are driven from outside to `mf`. -/
  | systemWrite (mf : BitVec 8) (addr : BitVec 40) (beats : List Beat)
  /-- SYSTEM_READ, R162. -/
  | systemRead (addr : BitVec 40) (beats : Nat)
  /-- ENGINE_GRANT, R45. -/
  | engineGrant
  /-- ANALYSIS_COMPLETION, R48. -/
  | analysisCompletion
  /-- HOLD_TIMER_EXPIRY, R20: the hold timer of the trailer of capture entry `entry`. -/
  | holdTimerExpiry (c : Chan) (entry : Fin 2)
  /-- STALL_TIMER_EXPIRY, R32. -/
  | stallTimerExpiry (c : Chan)
  /-- ABANDON_TIMER_EXPIRY, R32. -/
  | abandonTimerExpiry (c : Chan)
  /-- APPLY, R175: the host writes the command word with code 1. -/
  | apply (tag : Byte) (mask : BitVec 16)
  /-- START, R180: code 2. -/
  | start (tag : Byte) (mask : BitVec 16)
  /-- START_REPLAY, R180: code 3. -/
  | startReplay (tag : Byte) (mask : BitVec 16)
  /-- STOP, R35: code 4. -/
  | stop (tag : Byte) (mask : BitVec 16)
  /-- ISOLATE, R35: code 5. -/
  | isolate (tag : Byte) (mask : BitVec 16)
  /-- RESTART, R36: code 6. -/
  | restart (tag : Byte) (mask : BitVec 16)
  /-- FLUSH, R181: code 7. -/
  | flush (tag : Byte) (mask : BitVec 16)
  /-- RESET_PART, R182: code 8. -/
  | resetPart (tag : Byte) (mask : BitVec 16)
  /-- UNKNOWN_COMMAND, R174: the host writes the command word with a code not 1 to 8. -/
  | unknownCommand (code tag : Byte) (mask : BitVec 16)
  /-- STAGED_WRITE, R172: the system side writes into the setup block at `offset` from its base. -/
  | stagedWrite (offset : BitVec 14) (beats : List Beat)
  /-- BATCH_TAKE, R138: read `id` returns OK with `data`. -/
  | batchTake (id : Nat) (data : List Word64)
  /-- CONDITION_WORD_READ, R186: read `id` returns OK with `data`. -/
  | conditionWordRead (id : Nat) (data : List Word64)
  /-- READ_DATA_RETURN, R161: system-side transaction `id` is answered (for a write, `data` is empty). -/
  | readDataReturn (id : Nat) (status : RespStatus) (data : List Word64)
  /-- MEMORY_SIDE_GRANT, R167: the memory side can take a transaction; `mf` as for SYSTEM_WRITE. -/
  | memorySideGrant (mf : BitVec 8)
  /-- PART_WRITE_RESPONSE, R168: memory answers the part write `id`. -/
  | partWriteResponse (id : Nat) (status : RespStatus)
  /-- RECORD_PLACEMENT, R134. -/
  | recordPlacement
  /-- FLUSH_APPLY, R140. -/
  | flushApply
  /-- RING_RESET_PART_TAKE, R143. -/
  | ringResetPartTake
  /-- BATCH_AGE_EXPIRY, R141. -/
  | batchAgeExpiry
  /-- PULSE_END, R151. -/
  | pulseEnd (strand : Strand)
  /-- MARK_EXPIRY, R152: the entry of the strand's mark queue with this trigger (R149: no two share one). -/
  | markExpiry (strand : Strand) (trigger : Word32)
  /-- SNAPSHOT_EXPIRY, R189. -/
  | snapshotExpiry
  deriving DecidableEq, Repr

end Sys2Proof
end

