-- ==== Sys2Proof/WellFormed.lean ====
section
/-! DEFINITION. Which commands have the form the manual gives them. -/

namespace Sys2Proof

/-- Section 9.1: a transaction has a byte address aligned to 8 and 1 to 16 beats. -/
def portForm (addr beats : Nat) : Bool := addr % 8 == 0 && decide (1 ≤ beats) && decide (beats ≤ 16)

/-- R172: some beat of a write at `offset` falls in a host-written region. -/
def touchesHostWritten (offset beats : Nat) : Bool :=
  (List.range beats).any fun i => Machine.hostWritten (offset + 8 * i)

/-- R174: the code is one of the eight of the table. -/
def knownCode (code : Byte) : Bool := decide (1 ≤ code.toNat) && decide (code.toNat ≤ 8)

/-- A command of the form the manual gives it. -/
def Instr.wellFormed (i : Instr) : Bool :=
  match i with
  | .powerOn _ => true
  | .resetLineAssert => true
  | .resetLineRelease _ => true
  | .systemWrite _ addr beats => portForm addr.toNat beats.length
  | .systemRead addr beats => portForm addr.toNat beats
  | .engineGrant => true
  | .analysisCompletion => true
  | .holdTimerExpiry _ _ => true
  | .stallTimerExpiry _ => true
  | .abandonTimerExpiry _ => true
  | .apply _ _ => true
  | .start _ _ => true
  | .startReplay _ _ => true
  | .stop _ _ => true
  | .isolate _ _ => true
  | .restart _ _ => true
  | .flush _ _ => true
  | .resetPart _ _ => true
  | .unknownCommand code _ _ => !knownCode code
  | .stagedWrite offset beats => portForm offset.toNat beats.length && touchesHostWritten offset.toNat beats.length
  | .batchTake _ data => decide (1 ≤ data.length) && decide (data.length ≤ 16)
  | .conditionWordRead _ data => decide (1 ≤ data.length) && decide (data.length ≤ 16)
  | .readDataReturn _ _ data => decide (data.length ≤ 16)
  | .memorySideGrant _ => true
  | .partWriteResponse _ _ => true
  | .recordPlacement => true
  | .flushApply => true
  | .ringResetPartTake => true
  | .batchAgeExpiry => true
  | .pulseEnd _ => true
  | .markExpiry _ _ => true
  | .snapshotExpiry => true

end Sys2Proof
end

