-- ==== Sys2Proof/Machine/State.lean ====
section
/-! DEFINITION. The state of the part, block by block, the reasons a step can stop, and the state after reset. -/

namespace Sys2Proof.Machine

/-- Why the machine would stop with a fault. The manual gives the part nothing that stops it: every bad line, bad
command, full queue or memory error has an effect of its own. No meaning raises a fault (safe: there is none). -/
inductive Fault where
  deriving DecidableEq, Repr

/-- Why a command has no outcome. -/
inductive Refusal where
  /-- The command has no meaning in this model yet: raised by `exec` alone; safe. -/
  | notModelled (mnemonic : String)
  /-- The command's transaction is none of section 9.1's table: its address is not a multiple of 8, or it has no beat or
  more than 16. Raised by SYSTEM_WRITE, SYSTEM_READ and STAGED_WRITE; safe (log 26). -/
  | notATransaction
  deriving DecidableEq, Repr

/-! ## Line capture (R4) -/

/-- The state of a capture entry, R4. -/
inductive EntryState where
  | free
  | assembling
  | queued
  | engaged
  deriving DecidableEq, Repr

/-- The verdict class of a completed line, R15. -/
inductive LineClass where
  | malformed
  | noBillet
  | lamp
  | held
  | reverse
  | toAnalyse
  deriving DecidableEq, Repr

/-- A capture entry, R4. -/
structure Entry where
  state : EntryState
  /-- The header and pixel bytes by slot offset, over 0. -/
  buffer : Store Byte
  /-- The beats whose beat-map flag is set, rising. -/
  beatMap : List Nat
  slot : Nat
  cls : Option LineClass
  /-- The line's gap (R13), part of its unseen contribution. -/
  gap : Nat
  unseenAfter : Nat
  /-- Set when the line became the billet head (R27): at its grant it is the seed line (R28). -/
  isHead : Bool
  deriving DecidableEq, Repr

/-- The assembly state of a channel, R4. -/
inductive Assembly where
  | idle
  | assembling (slot : Nat)
  | skipping (slot : Nat)
  deriving DecidableEq, Repr

/-- Line capture's state for one channel, R4. -/
structure Capture where
  e0 : Entry
  e1 : Entry
  asm : Assembly
  lastSeq : Option Word32
  unplaced : Nat
  unseenRun : Nat
  /-- The completed entries in completion order, the head first (R16). -/
  queue : List (Fin 2)
  deriving DecidableEq, Repr

/-- A held trailer of a channel, R18: its transaction, which beat is the trailer, and its hold timer (in µs). -/
structure HeldTrailer where
  entry : Fin 2
  txn : Nat
  beat : Nat
  start : Word32
  length : Nat
  deriving DecidableEq, Repr

/-! ## Channel unit (R24) -/

/-- The state of a channel, R24. -/
inductive ChanState where
  | off
  | waiting
  | inspecting
  | stalled
  | passOnly
  deriving DecidableEq, Repr

/-- The mode of a channel, R24. -/
inductive Mode where
  | live
  | replay
  deriving DecidableEq, Repr

/-- The commands that carry a channel mask, R33. -/
inductive ChanCommand where
  | start
  | startReplay
  | stop
  | isolate
  | restart
  deriving DecidableEq, Repr

/-- A running timer of the millisecond count, R191: its start and its length in ms. -/
structure MsTimer where
  start : Word32
  length : Nat
  deriving DecidableEq, Repr

/-- The billet tallies, R24, R41. -/
structure Tallies where
  analysed : Nat
  unseen : Nat
  discarded : Nat
  onPitch : Nat
  transverse : Nat
  deriving DecidableEq, Repr

/-- The channel record, R24. -/
structure ChanRecord where
  state : ChanState
  mode : Mode
  billet : Nat
  headCount : Word32
  lastAnalysed : Word32
  warmupLeft : Nat
  serial : Word32
  stall : Option MsTimer
  abandon : Option MsTimer
  pendingCmd : Option ChanCommand
  /-- An abandon expiry fell while an analysis of the channel was in flight: the billet ends at its completion (R32). -/
  abandonDue : Bool
  tallies : Tallies
  deriving DecidableEq, Repr

/-! ## Parameters (R176, R197) -/

/-- The channel section of a parameter set. STALL_MS and HOLD_US are counts of 10 (R177). -/
structure ChanParams where
  mLo : Nat
  mHi : Nat
  satLevel : Nat
  obf : Nat
  dfloor : Nat
  k : Nat
  a : Nat
  l : Nat
  wu : Nat
  br : Nat
  rw : Nat
  ls : Nat
  g : Nat
  maxSkip : Nat
  bf : Nat
  deepM : Nat
  bandMax : Nat
  edgeC : Nat
  profile : Nat
  learn : Bool
  bandOff : Bool
  stallTens : Nat
  abandonS : Nat
  holdTens : Nat
  pitch : Nat
  pMin : Nat
  pMax : Nat
  pTol : Nat
  colP : Nat
  spot : Nat
  deriving DecidableEq, Repr

/-- The strand section of a parameter set. -/
structure StrandParams where
  scale : Nat
  offset : Nat
  merge : Nat
  pulseMs : Nat
  lifeS : Nat
  deriving DecidableEq, Repr

/-- A condition of a profile entry on a flag of the closure, R116. -/
inductive FlagCondition where
  | any
  | required
  | excluded
  deriving DecidableEq, Repr

/-- A profile entry, R116. The orientation set is bits 0 SPOT, 1 LONGITUDINAL, 2 TRANSVERSE, 3 OBLIQUE (R197). -/
structure Profile where
  enabled : Bool
  orientations : BitVec 8
  inMark : FlagCondition
  edge : FlagCondition
  classCode : Nat
  severity : Nat
  mark : Bool
  minLength : Nat
  minWidth : Nat
  minPeak : Nat
  minArea : Nat
  deriving DecidableEq, Repr

/-- A channel's parameter set: its channel section, the section of its strand and the four profile tables (R116, R179). -/
structure ParamSet where
  chan : ChanParams
  strand : StrandParams
  profiles : Bank4 (Bank16 Profile)
  deriving DecidableEq, Repr

/-! ## Detection engine (R43) -/

/-- The role of an analysis, R28. -/
inductive Role where
  | seed
  | warmup
  | ordinary
  deriving DecidableEq, Repr

/-- The analysis in flight: its channel, its role and the set it took at its grant (R28, R46). -/
structure Analysis where
  chan : Chan
  role : Role
  params : ParamSet
  deriving DecidableEq, Repr

/-- The engine: IDLE (no analysis) or BUSY, and the last served channel, R43. -/
structure Engine where
  analysis : Option Analysis
  lastServed : Chan
  deriving DecidableEq, Repr

/-! ## Band tracker (R70) and track table (R88) -/

/-- The state of an episode, R70. -/
inductive EpisodeState where
  | absent
  | isOpen
  | ending
  deriving DecidableEq, Repr

/-- An episode record, R70. -/
structure Episode where
  state : EpisodeState
  firstCount : Word32
  firstPos : Nat
  lastPos : Nat
  hullLo : Nat
  hullHi : Nat
  peak : Nat
  area : Nat
  lines : Nat
  deriving DecidableEq, Repr

/-- The band tracker's state for one channel, R70. The pitch ring is oldest first. -/
structure Band where
  episode : Episode
  prevCentre : Option Nat
  pitchRing : List Nat
  effPitch : Nat
  deriving DecidableEq, Repr

/-- An open track, R89. -/
structure Track where
  id : Nat
  firstSeq : Word32
  firstCount : Word32
  firstPos : Nat
  lastPos : Nat
  spanLo : Nat
  spanHi : Nat
  overLo : Nat
  overHi : Nat
  area : Nat
  peak : Nat
  sum : Nat
  lines : Nat
  gap : Nat
  inMark : Bool
  joined : Bool
  clutterSeen : Bool
  deriving DecidableEq, Repr

/-- All that the part keeps per channel outside the status unit. `params` is the active set and `waiting` the set
waiting for an INSPECTING channel's switch (R179). `tracks` lists the OPEN entries in rising track ID (R88). -/
structure Channel where
  capture : Capture
  held : List HeldTrailer
  record : ChanRecord
  background : Store (Nat × Nat)
  band : Band
  tracks : List Track
  params : ParamSet
  waiting : Option ParamSet
  deriving DecidableEq, Repr

/-! ## Records and the ring writer (R128) -/

/-- The mark status of a DEFECT record, R120. -/
inductive MarkStatus where
  | none
  | scheduled
  | merged
  | late
  | dropped
  | suppressed
  deriving DecidableEq, Repr

/-- A DEFECT record, R121. `flags` as R195 numbers them. -/
structure DefectRecord where
  chan : Chan
  classCode : Nat
  severity : Nat
  flags : BitVec 8
  mark : MarkStatus
  billet : Nat
  serial : Word32
  firstPos : Nat
  length : Nat
  lo : Nat
  hi : Nat
  peak : Nat
  area : Nat
  lines : Nat
  closeTime : Word32
  deriving DecidableEq, Repr

/-- How a BILLET record's billet ended: its flags, R42. -/
inductive BilletEnd where
  | tail
  | abandoned
  | stopped
  deriving DecidableEq, Repr

/-- A BILLET record, R42. -/
structure BilletRecord where
  chan : Chan
  ending : BilletEnd
  billet : Nat
  length : Nat
  tallies : Tallies
  defects : Nat
  effPitch : Nat
  closeTime : Word32
  deriving DecidableEq, Repr

/-- A record of the defect ring, R195. -/
inductive Record where
  | defect (d : DefectRecord)
  | billet (b : BilletRecord)
  | gap (lost : Nat) (first last : Word32)
  | filler
  deriving DecidableEq, Repr

/-- The open loss episode, R128. -/
structure Loss where
  count : Nat
  first : Word32
  last : Word32
  deriving DecidableEq, Repr

/-- The state of a batch slot, R133. -/
inductive SlotState where
  | free
  | filling
  | ready
  deriving DecidableEq, Repr

/-- A batch slot: its state and its places assigned, R128. -/
structure Slot where
  state : SlotState
  places : Nat
  deriving DecidableEq, Repr

/-- Where records go: no slot table, the FILLING slot, or blocked on a slot (R128, R137). -/
inductive FillPoint where
  | none
  | filling (slot : Nat)
  | blocked (slot : Nat)
  deriving DecidableEq, Repr

/-- The ring writer, R128. -/
structure Ring where
  queue : List Record
  loss : Option Loss
  /-- The slot table; empty while absent. -/
  slots : List Slot
  fill : FillPoint
  outstanding : Nat
  /-- FILLER records of the FILLING slot that await admission (R140): the last `fillers` places. -/
  fillers : Nat
  age : Option MsTimer
  flushPending : Bool
  index : Word32
  /-- RESET_PART's second part has come and the ring writer has not taken it (R143). -/
  resetWait : Bool
  /-- BATCH_AGE_MS in use, a count of 10 ms (R177, R179). -/
  batchAge : Nat
  flushOnTail : Bool
  deriving DecidableEq, Repr

/-! ## Mark scheduler (R145) -/

/-- A mark queue entry, R145. -/
structure Mark where
  trigger : Word32
  chan : Chan
  expiry : Word32
  deriving DecidableEq, Repr

/-- The mark scheduler's state for one strand, R145, R146. `pulse` is the end of an ACTIVE pulse. -/
structure StrandState where
  queue : List Mark
  lastCount : Option Word32
  pulse : Option Word32
  merge : Nat
  pulseMs : Nat
  lifeS : Nat
  mergeHeld : Option Nat
  deriving DecidableEq, Repr

/-! ## Memory path (R159 to R168) -/

/-- What a system-side transaction asks for, section 9.1. -/
inductive Body where
  | write (beats : List Beat)
  | read (beats : Nat)
  deriving DecidableEq, Repr

/-- Which regions a transaction's beats were classed against at its acceptance (R160): none while the reset line is
asserted, the setup block alone before geometry is held, all regions after. -/
inductive Watch where
  | none
  | setupOnly
  | all
  deriving DecidableEq, Repr

/-- A transaction of the system-side list, R159. -/
structure SysTxn where
  id : Nat
  addr : Nat
  body : Body
  held : Bool
  watch : Watch
  deriving DecidableEq, Repr

/-- A transaction the system side presents while acceptance is withheld (R159). -/
structure PortTxn where
  id : Nat
  addr : Nat
  body : Body
  deriving DecidableEq, Repr

/-- A system-side transaction issued and not yet answered. `shown` pairs each condition word that a read covers with
its published copy at the issue (R186). -/
structure SysOut where
  id : Nat
  addr : Nat
  beats : Nat
  isRead : Bool
  watch : Watch
  shown : List (Nat × BitVec 16)
  deriving DecidableEq, Repr

/-- The kind of a part write, section 9.3. -/
inductive WriteKind where
  | record
  | status
  | word
  deriving DecidableEq, Repr

/-- An entry of the outgoing write queue, R164. -/
structure OutEntry where
  kind : WriteKind
  addr : Nat
  data : List Byte
  deriving DecidableEq, Repr

/-- A part write issued and not yet answered, R168. `live` is false once the reset line has been asserted (R169). -/
structure PartOut where
  id : Nat
  kind : WriteKind
  addr : Nat
  data : List Byte
  live : Bool
  deriving DecidableEq, Repr

/-- A side of the memory-side arbiter, R167. -/
inductive Side where
  | system
  | part
  deriving DecidableEq, Repr

/-- What passes to the memory side: a forwarded transaction or a part write. -/
inductive MemTxn where
  | fromSystem (id addr : Nat) (body : Body)
  | fromPart (id : Nat) (e : OutEntry)
  deriving DecidableEq, Repr

/-- What passes back to the system side (R161). -/
structure SysReply where
  id : Nat
  status : RespStatus
  data : List Word64
  deriving DecidableEq, Repr

/-- The memory path. -/
structure Path where
  list : List SysTxn
  port : List PortTxn
  queue : List OutEntry
  /-- Deferred contents by word address (R166). -/
  deferred : List (Nat × List Byte)
  sysOut : List SysOut
  partOut : List PartOut
  lastSide : Side
  nextId : Nat
  memLog : List MemTxn
  sysLog : List SysReply
  deriving DecidableEq, Repr

/-! ## Setup unit (R171 to R183) -/

/-- The geometry section's fields (R197), as staged or as held (R178). `mf` lists the codes of MF0 to MF7. -/
structure Geometry where
  w : Nat
  lineBase : Bank16 Nat
  lineN : Bank16 Nat
  replayBase : Nat
  replayN : Nat
  b : Nat
  s : Nat
  ringBase : Nat
  mf : List Nat
  deriving DecidableEq, Repr

/-- The command in progress: its tag and code, and what its status word will carry. -/
structure Running where
  tag : Byte
  code : Byte
  isPartial : Bool
  clamped : Nat
  geometryHeld : Bool
  deriving DecidableEq, Repr

/-- The command state, R173. -/
inductive CommandState where
  | ready
  | inProgress (r : Running)
  deriving DecidableEq, Repr

/-- The setup unit; the active parameters stand with their channels. -/
structure Setup where
  strap : BitVec 4
  staged : Store Byte
  geometry : Option Geometry
  command : CommandState
  deriving DecidableEq, Repr

/-! ## Status unit (R184 to R190) -/

/-- A latched set, in the bit order of its condition word (R198), its published copy and the issue that gave it (R185). -/
structure CondWord where
  latched : BitVec 16
  published : BitVec 16
  publishedBy : Nat
  deriving DecidableEq, Repr

/-- A channel's counters, R188. -/
structure ChanCounters where
  analysed : Nat
  unseen : Nat
  skippedBusy : Nat
  malformed : Nat
  obscured : Nat
  pending : Nat
  trackFull : Nat
  discarded : Nat
  deriving DecidableEq, Repr

/-- The part-wide counters, R188. -/
structure PartCounters where
  recordsLost : Nat
  marksLate : Nat
  marksDropped : Nat
  marksExpired : Nat
  marksDiscarded : Nat
  memoryErrors : Nat
  deriving DecidableEq, Repr

/-- The status unit. -/
structure Status where
  words : Bank16 CondWord
  part : CondWord
  counters : Bank16 ChanCounters
  partCounters : PartCounters
  maskChan : BitVec 16
  maskPart : BitVec 8
  summary : BitVec 17
  code : Nat
  snapshot : Option MsTimer
  resets : Nat
  deriving DecidableEq, Repr

/-- The state of the part, and the queue of commands that wait. -/
structure State where
  pending : List Instr
  us : Word32
  ms : Word32
  usInMs : Nat
  resetLine : Bool
  mfIn : BitVec 8
  chans : Bank16 Channel
  unrouted : Option Nat
  engine : Engine
  ring : Ring
  strands : Bank4 StrandState
  path : Path
  setup : Setup
  status : Status
  freeCount : Nat
  deriving DecidableEq, Repr

/-! ## Reset values -/

/-- A FREE capture entry: R4 gives its state, its empty beat map and its unseen-after of 0. That its line buffer, slot, gap
and head flag are 0 and its class absent is the model's choice (log 37). -/
def Entry.empty : Entry :=
  { state := .free, buffer := [], beatMap := [], slot := 0, cls := none, gap := 0, unseenAfter := 0, isHead := false }

/-- R4: capture state after the resets and at a teardown. -/
def Capture.empty : Capture :=
  { e0 := Entry.empty, e1 := Entry.empty, asm := .idle, lastSeq := none, unplaced := 0, unseenRun := 0, queue := [] }

/-- Tallies of 0. -/
def Tallies.zero : Tallies := { analysed := 0, unseen := 0, discarded := 0, onPitch := 0, transverse := 0 }

/-- R24: the last column. -/
def ChanRecord.initial : ChanRecord :=
  { state := .off, mode := .live, billet := 0, headCount := 0, lastAnalysed := 0, warmupLeft := 0, serial := 0,
    stall := none, abandon := none, pendingCmd := none, abandonDue := false, tallies := Tallies.zero }

/-- Parameters of 0 (R183). -/
def ChanParams.zero : ChanParams :=
  { mLo := 0, mHi := 0, satLevel := 0, obf := 0, dfloor := 0, k := 0, a := 0, l := 0, wu := 0, br := 0, rw := 0,
    ls := 0, g := 0, maxSkip := 0, bf := 0, deepM := 0, bandMax := 0, edgeC := 0, profile := 0, learn := false,
    bandOff := false, stallTens := 0, abandonS := 0, holdTens := 0, pitch := 0, pMin := 0, pMax := 0, pTol := 0,
    colP := 0, spot := 0 }

/-- Strand parameters of 0 (R183). -/
def StrandParams.zero : StrandParams := { scale := 0, offset := 0, merge := 0, pulseMs := 0, lifeS := 0 }

/-- A profile entry of 0: disabled (R116). -/
def Profile.zero : Profile :=
  { enabled := false, orientations := 0, inMark := .any, edge := .any, classCode := 0, severity := 0, mark := false,
    minLength := 0, minWidth := 0, minPeak := 0, minArea := 0 }

/-- A parameter set of 0 (R183). -/
def ParamSet.zero : ParamSet :=
  { chan := ChanParams.zero, strand := StrandParams.zero, profiles := Bank4.all (Bank16.all Profile.zero) }

/-- R70: no episode, with the fields at 0. -/
def Episode.none : Episode :=
  { state := .absent, firstCount := 0, firstPos := 0, lastPos := 0, hullLo := 0, hullHi := 0, peak := 0, area := 0,
    lines := 0 }

/-- R70: the band tracker after the resets, with the effective pitch that R84 gives. -/
def Band.empty (effPitch : Nat) : Band :=
  { episode := Episode.none, prevCentre := Option.none, pitchRing := [], effPitch := effPitch }

/-- A channel after power-on; R84 gives an effective pitch of 0 from parameters of 0. -/
def Channel.initial : Channel :=
  { capture := Capture.empty, held := [], record := ChanRecord.initial, background := [], band := Band.empty 0,
    tracks := [], params := ParamSet.zero, waiting := none }

/-- R43: IDLE, last served 15. -/
def Engine.initial : Engine := { analysis := none, lastServed := 15 }

/-- R128: after power-on and the reset line. -/
def Ring.initial : Ring :=
  { queue := [], loss := none, slots := [], fill := .none, outstanding := 0, fillers := 0, age := none,
    flushPending := false, index := 0, resetWait := false, batchAge := 0, flushOnTail := false }

/-- R145, R146: after power-on and the reset line. -/
def StrandState.initial : StrandState :=
  { queue := [], lastCount := none, pulse := none, merge := 0, pulseMs := 0, lifeS := 0, mergeHeld := none }

/-- R170: everything empty, the last side SYSTEM. -/
def Path.initial : Path :=
  { list := [], port := [], queue := [], deferred := [], sysOut := [], partOut := [], lastSide := .system, nextId := 0,
    memLog := [], sysLog := [] }

/-- An empty latched set and published copy (R184, R185). -/
def CondWord.empty : CondWord := { latched := 0, published := 0, publishedBy := 0 }

/-- Counters of 0 (R188). -/
def ChanCounters.zero : ChanCounters :=
  { analysed := 0, unseen := 0, skippedBusy := 0, malformed := 0, obscured := 0, pending := 0, trackFull := 0,
    discarded := 0 }

/-- Counters of 0 (R188). -/
def PartCounters.zero : PartCounters :=
  { recordsLost := 0, marksLate := 0, marksDropped := 0, marksExpired := 0, marksDiscarded := 0, memoryErrors := 0 }

/-- R184, R187 to R190: after power-on. -/
def Status.initial : Status :=
  { words := Bank16.all CondWord.empty, part := CondWord.empty, counters := Bank16.all ChanCounters.zero,
    partCounters := PartCounters.zero, maskChan := 0, maskPart := 0, summary := 0, code := 0, snapshot := none,
    resets := 0 }

/-- R183: READY, nothing staged, no geometry held, and the straps as read. -/
def Setup.initial (strap : BitVec 4) : Setup :=
  { strap := strap, staged := [], geometry := none, command := .ready }

/-- The part as it has just left power-on with `strap` read on SB[3:0]: every block at its power-on values, and the
start-up record and the condition words offered to the empty outgoing write queue (R37, R170, R185, R190; log 10). No rule
gives the reset line's level there: that it is not asserted is the model's choice (log 43). -/
def State.powerOn (strap : BitVec 4) : State :=
  { pending := [], us := 0, ms := 0, usInMs := 0, resetLine := false, mfIn := 0, chans := Bank16.all Channel.initial,
    unrouted := none, engine := Engine.initial, ring := Ring.initial, strands := Bank4.all StrandState.initial,
    path := { Path.initial with
      queue := (powerOnWrites strap).map fun w => { kind := .word, addr := w.1, data := w.2 } },
    setup := Setup.initial strap, status := Status.initial, freeCount := 0 }

/-- The machine right after reset: the part has just left power-on with the straps reading 0 (log 8). -/
def State.reset : State := State.powerOn 0

end Sys2Proof.Machine
end

