-- ==== Sys2Proof/Machine/Flags.lean ====
section
/-! DEFINITION. Flags and codes: conditions (R184, R198), verdicts (R19, R194), flags of records (R122, R195). -/

namespace Sys2Proof.Machine

/-- 2^i where the flag is set, 0 where it is clear. -/
def flagAt (i : Nat) (b : Bool) : Nat := if b then 2 ^ i else 0

/-! ## Conditions -/

/-- The conditions of a channel, R184. -/
inductive ChanCond where
  | lineLoss
  | skippedBusy
  | malformed
  | obscured
  | holdExpired
  | trackFull
  | runClutter
  | stuckColumn
  | stall
  | abandoned
  deriving DecidableEq, Repr

/-- R198: the bit of a channel condition. -/
def chanCondBit : ChanCond → Nat
  | .lineLoss => 0
  | .skippedBusy => 1
  | .malformed => 2
  | .obscured => 3
  | .holdExpired => 4
  | .trackFull => 5
  | .runClutter => 6
  | .stuckColumn => 7
  | .stall => 8
  | .abandoned => 9

/-- The part-wide conditions, R184. -/
inductive PartCond where
  | batchReady
  | ringBlocked
  | recordsLost
  | markLate
  | markDropped
  | markExpired
  | memoryError
  | strayReplay
  deriving DecidableEq, Repr

/-- R198: the bit of a part-wide condition. -/
def partCondBit : PartCond → Nat
  | .batchReady => 0
  | .ringBlocked => 1
  | .recordsLost => 2
  | .markLate => 3
  | .markDropped => 4
  | .markExpired => 5
  | .memoryError => 6
  | .strayReplay => 7

/-- The set that holds one condition, by its bit. -/
def condSet (bit : Nat) : BitVec 16 := BitVec.ofNat 16 (2 ^ bit)

/-- The owners of condition words, R185. -/
inductive Owner where
  | chan (c : Chan)
  | part
  deriving DecidableEq, Repr

/-- The number of an owner's condition word and status block: 0 to 15 by channel, 16 for the part (R196). -/
def ownerIndex : Owner → Nat
  | .chan c => c.val
  | .part => 16

/-- The owners in ascending order of their words' addresses. -/
def allOwners : List Owner := allChans.map Owner.chan ++ [.part]

/-! ## Verdicts -/

/-- The verdicts, R19. -/
inductive Verdict where
  | analysed
  | pending
  | seed
  | warmup
  | noBillet
  | skippedBusy
  | malformed
  | obscured
  | lamp
  | held
  | reverse
  | aborted
  | notRouted
  deriving DecidableEq, Repr

/-- R19: the code of a verdict. -/
def verdictCode : Verdict → Nat
  | .analysed => 1
  | .pending => 2
  | .seed => 3
  | .warmup => 4
  | .noBillet => 5
  | .skippedBusy => 6
  | .malformed => 7
  | .obscured => 8
  | .lamp => 9
  | .held => 10
  | .reverse => 11
  | .aborted => 12
  | .notRouted => 13

/-- The flags of an ANALYSED verdict, R19, R68. -/
structure LineFlags where
  band : Bool
  deep : Bool
  clutter : Bool
  stuck : Bool
  clampT : Bool
  deriving DecidableEq, Repr

/-- No flag. -/
def LineFlags.none : LineFlags := { band := false, deep := false, clutter := false, stuck := false, clampT := false }

/-- R194: the flags byte of a verdict word. -/
def lineFlagsByte (f : LineFlags) : Nat :=
  flagAt 0 f.band + flagAt 1 f.deep + flagAt 2 f.clutter + flagAt 3 f.stuck + flagAt 4 f.clampT

/-- R19, R194: the verdict word of an ANALYSED line. -/
def analysedWord (f : LineFlags) (runs openTracks dark threshold : Nat) : Word64 :=
  beatOf (leBytes 1 (verdictCode .analysed) ++ leBytes 1 (lineFlagsByte f) ++ leBytes 1 runs ++ leBytes 1 openTracks ++
    leBytes 2 dark ++ leBytes 2 threshold)

/-- R19: the verdict word of every other verdict, all contents 0 but the code. -/
def plainWord (v : Verdict) : Word64 := beatOf (leBytes 1 (verdictCode v) ++ zeros 7)

/-- R15: the verdict that a class gives at once; none for a line to be analysed, whose trailer is held. -/
def classVerdict : LineClass → Option Verdict
  | .malformed => some .malformed
  | .noBillet => some .noBillet
  | .lamp => some .lamp
  | .held => some .held
  | .reverse => some .reverse
  | .toAnalyse => none

/-! ## Records -/

/-- Why a track or an episode closed, R104, R82. -/
inductive Cause where
  | gap
  | tail
  | abandoned
  | stopped
  | blind
  deriving DecidableEq, Repr

/-- What a closure hands the classifier, R104, R82; the channel is handed beside it. -/
structure Closure where
  /-- The origin is BAND, not TRACK. -/
  band : Bool
  /-- The ID of the track (R104); a closed episode has none (R82). -/
  trackId : Option Nat
  cause : Cause
  long : Bool
  firstCount : Word32
  firstPos : Nat
  lastPos : Nat
  lo : Nat
  hi : Nat
  peak : Nat
  area : Nat
  /-- The track's residual sum (R104); a closed episode hands none (R82). -/
  sum : Option Nat
  lines : Nat
  inMark : Bool
  joined : Bool
  clutterSeen : Bool
  deriving DecidableEq, Repr

/-- R122, R195: the flags of a DEFECT record. -/
def defectFlags (k : Closure) (edge : Bool) : BitVec 8 :=
  BitVec.ofNat 8
    (flagAt 0 (decide (k.cause ≠ .gap)) + flagAt 1 k.joined + flagAt 2 k.inMark + flagAt 3 k.band + flagAt 4 k.long +
      flagAt 5 edge + flagAt 6 k.clutterSeen)

/-- R195: the code of a mark status. -/
def markStatusCode : MarkStatus → Nat
  | .none => 0
  | .scheduled => 1
  | .merged => 2
  | .late => 3
  | .dropped => 4
  | .suppressed => 5

/-- R195: the flags byte of a BILLET record. -/
def billetFlags : BilletEnd → Nat
  | .tail => 0
  | .abandoned => 1
  | .stopped => 2

/-- R198: the code of a channel state. -/
def chanStateCode : ChanState → Nat
  | .off => 0
  | .waiting => 1
  | .inspecting => 2
  | .stalled => 3
  | .passOnly => 4

/-- R198: the code of a mode. -/
def modeCode : Mode → Nat
  | .live => 0
  | .replay => 1

/-- R198: the code of a slot state. -/
def slotStateCode : SlotState → Nat
  | .free => 0
  | .filling => 1
  | .ready => 2

end Sys2Proof.Machine
end

