-- ==== Sys2Proof/Machine/Formats.lean ====
section
/-! DEFINITION. The bytes of records, words and status blocks (R192, R195, R198). -/

namespace Sys2Proof.Machine

/-- A field of `n` bytes: a quantity that exceeds the width is carried saturated at its greatest value (R192). -/
def field (n v : Nat) : List Byte := leBytes n (min v (256 ^ n - 1))

/-- R195: a DEFECT record. -/
def defectBytes (d : DefectRecord) : List Byte :=
  field 1 1 ++ field 1 (d.chan.val + 16 * markStatusCode d.mark) ++ field 1 (d.classCode + 64 * d.severity) ++
    field 1 d.flags.toNat ++ field 2 d.billet ++ field 2 d.lines ++ field 4 d.serial.toNat ++
    field 4 d.firstPos ++ field 4 d.length ++ field 2 d.lo ++ field 2 d.hi ++ field 2 d.peak ++
    field 2 d.area ++ field 4 d.closeTime.toNat

/-- R195: a BILLET record. -/
def billetBytes (b : BilletRecord) : List Byte :=
  field 1 2 ++ field 1 b.chan.val ++ field 1 (billetFlags b.ending) ++ zeros 1 ++ field 2 b.billet ++
    field 2 b.effPitch ++ field 4 b.length ++ field 2 b.tallies.analysed ++ field 2 b.tallies.unseen ++
    field 2 b.defects ++ field 2 b.tallies.discarded ++ field 2 b.tallies.onPitch ++
    field 2 b.tallies.transverse ++ field 4 b.closeTime.toNat ++ zeros 4

/-- R195: the 32 bytes of a record. -/
def recordBytes : Record → List Byte
  | .defect d => defectBytes d
  | .billet b => billetBytes b
  | .gap lost first last =>
    field 1 3 ++ zeros 3 ++ field 4 lost ++ field 4 first.toNat ++ field 4 last.toNat ++ zeros 16
  | .filler => field 1 4 ++ zeros 31

/-- Results of a command, R198. -/
inductive CommandResult where
  | done
  | refusedBusy
  | refusedInvalid
  | refusedUnknown
  | refusedNoGeometry
  deriving DecidableEq, Repr

/-- R198: the code of a result. -/
def resultCode : CommandResult → Nat
  | .done => 1
  | .refusedBusy => 2
  | .refusedInvalid => 3
  | .refusedUnknown => 4
  | .refusedNoGeometry => 5

/-- R198: the command status word. -/
def commandStatusWord (tag code : Byte) (res : CommandResult) (isPartial clampedFlag geometryHeld : Bool)
    (check clamped : Nat) : List Byte :=
  [tag, code] ++ field 1 (resultCode res) ++
    field 1 (flagAt 0 isPartial + flagAt 1 clampedFlag + flagAt 2 geometryHeld) ++ field 1 check ++ zeros 1 ++
    field 2 clamped

/-- R198: the attention summary word, bit `c` for channel `c` and bit 0 of byte 2 for the part. -/
def attentionWord (summary : BitVec 17) : List Byte := field 3 summary.toNat ++ zeros 5

/-- R198: the ring index word. -/
def ringIndexWord (index : Word32) : List Byte := field 4 index.toNat ++ zeros 4

/-- R198: a channel's status block. -/
def channelBlock (ch : Channel) (k : ChanCounters) : List Byte :=
  field 1 (chanStateCode ch.record.state) ++ field 1 (modeCode ch.record.mode) ++
    field 1 ch.record.warmupLeft ++ field 1 ch.tracks.length ++ field 2 ch.record.billet ++
    field 1 ch.band.pitchRing.length ++ zeros 1 ++ field 4 ch.record.headCount.toNat ++
    field 4 ch.record.lastAnalysed.toNat ++ field 4 ch.record.serial.toNat ++ field 2 ch.band.effPitch ++
    zeros 2 ++ field 2 ch.record.tallies.analysed ++ field 2 ch.record.tallies.unseen ++
    field 2 ch.record.tallies.discarded ++ field 2 ch.record.tallies.onPitch ++
    field 2 ch.record.tallies.transverse ++ zeros 2 ++ field 2 k.analysed ++ field 2 k.unseen ++
    field 2 k.skippedBusy ++ field 2 k.malformed ++ field 2 k.obscured ++ field 2 k.pending ++
    field 2 k.trackFull ++ field 2 k.discarded ++ zeros 12

/-- R198: the slot states of up to 64 slots as an integer, slot `i` at bits 2 i and 2 i + 1. -/
def slotStatesField : List Slot → Nat
  | [] => 0
  | sl :: rest => slotStateCode sl.state + 4 * slotStatesField rest

/-- R198: the FILLING slot, 255 while there is none. -/
def fillField : FillPoint → Nat
  | .none => 255
  | .filling i => i
  | .blocked _ => 255

/-- The places assigned of the FILLING slot, 0 while none (R198). -/
def fillPlaces (r : Ring) : Nat :=
  match r.fill with
  | .filling i => ((r.slots[i]?).map Slot.places).getD 0
  | .blocked _ => 0
  | .none => 0

/-- R198: the part-wide status block. -/
def partBlock (s : State) : List Byte :=
  field 16 (slotStatesField s.ring.slots) ++ field 1 (fillField s.ring.fill) ++
    field 1 (flagAt 0 s.ring.flushPending) ++ field 2 (fillPlaces s.ring) ++ field 1 s.ring.queue.length ++
    field 1 s.path.queue.length ++ field 1 s.path.list.length ++ zeros 1 ++
    field 4 ((s.ring.loss.map Loss.count).getD 0) ++
    allStrands.flatMap (fun k => field 1 (s.strands.get k).queue.length) ++
    field 1 ((allStrands.map fun k => flagAt k.val (s.strands.get k).pulse.isSome).sum) ++ zeros 1 ++
    field 2 s.status.partCounters.recordsLost ++ field 2 s.status.partCounters.marksLate ++
    field 2 s.status.partCounters.marksDropped ++ field 2 s.status.partCounters.marksExpired ++
    field 2 s.status.partCounters.marksDiscarded ++ field 2 s.status.partCounters.memoryErrors ++ zeros 18

end Sys2Proof.Machine
end

