-- ==== Sys2Proof/Machine/Ops.lean ====
section
/-! DEFINITION. The named operations over the state that the blocks share. -/

namespace Sys2Proof.Machine

/-! ## Access by channel and strand -/

/-- Channel `c`'s state. -/
def State.chan (s : State) (c : Chan) : Channel := s.chans.get c

/-- The state with channel `c`'s part replaced. -/
def setChan (c : Chan) (ch : Channel) (s : State) : State := { s with chans := s.chans.set c ch }

/-- The state with channel `c`'s part changed by `f`. -/
def modChan (c : Chan) (f : Channel → Channel) (s : State) : State := setChan c (f (s.chan c)) s

/-- Channel `c`'s record changed by `f`. -/
def modRecord (c : Chan) (f : ChanRecord → ChanRecord) (s : State) : State :=
  modChan c (fun ch => { ch with record := f ch.record }) s

/-- Channel `c`'s tallies changed by `f` (R41). -/
def modTallies (c : Chan) (f : Tallies → Tallies) (s : State) : State :=
  modRecord c (fun r => { r with tallies := f r.tallies }) s

/-- Channel `c`'s capture state changed by `f`. -/
def modCapture (c : Chan) (f : Capture → Capture) (s : State) : State :=
  modChan c (fun ch => { ch with capture := f ch.capture }) s

/-- Channel `c`'s band tracker changed by `f`. -/
def modBand (c : Chan) (f : Band → Band) (s : State) : State :=
  modChan c (fun ch => { ch with band := f ch.band }) s

/-- A strand's scheduler changed by `f`. -/
def modStrand (k : Strand) (f : StrandState → StrandState) (s : State) : State :=
  { s with strands := s.strands.set k (f (s.strands.get k)) }

/-- The ring writer changed by `f`. -/
def modRing (f : Ring → Ring) (s : State) : State := { s with ring := f s.ring }

/-- The memory path changed by `f`. -/
def modPath (f : Path → Path) (s : State) : State := { s with path := f s.path }

/-- The status unit changed by `f`. -/
def modStatus (f : Status → Status) (s : State) : State := { s with status := f s.status }

/-- Capture entry `e` of a channel. -/
def entryOf (k : Capture) (e : Fin 2) : Entry :=
  match e with
  | 0 => k.e0
  | 1 => k.e1

/-- Capture state with entry `e` replaced. -/
def setEntry (k : Capture) (e : Fin 2) (v : Entry) : Capture :=
  match e with
  | 0 => { k with e0 := v }
  | 1 => { k with e1 := v }

/-- A billet is open while the channel is INSPECTING or STALLED (R24). -/
def billetOpen (s : State) (c : Chan) : Bool :=
  match (s.chan c).record.state with
  | .inspecting => true
  | .stalled => true
  | .off => false
  | .waiting => false
  | .passOnly => false

/-- A channel watches its window in WAITING, INSPECTING and STALLED (R3). -/
def watches (s : State) (c : Chan) : Bool :=
  match (s.chan c).record.state with
  | .waiting => true
  | .inspecting => true
  | .stalled => true
  | .off => false
  | .passOnly => false

/-- An analysis of channel `c` is in flight (R33). -/
def inFlight (s : State) (c : Chan) : Bool :=
  match s.engine.analysis with
  | some a => decide (a.chan = c)
  | none => false

/-- A timer of the millisecond count has run its length (R191). -/
def timerDue (now : Word32) (t : MsTimer) : Bool := decide (t.length ≤ distance now t.start)

/-! ## The outgoing write queue (R164 to R166) -/

/-- A queued STATUS or WORD write of this address (R164, R165). -/
def sameAddress (addr : Nat) (e : OutEntry) : Bool := decide (e.kind ≠ .record) && decide (e.addr = addr)

/-- The queue with the data of the entry of this address replaced, the entry keeping its place (R165). -/
def replaceData (addr : Nat) (data : List Byte) (q : List OutEntry) : List OutEntry :=
  q.map fun e => if sameAddress addr e then { e with data := data } else e

/-- R165, R166: a WORD write is offered. -/
def offerWordTo (addr : Nat) (data : List Byte) (p : Path) : Path :=
  if p.queue.any (sameAddress addr) then { p with queue := replaceData addr data p.queue }
  else if p.queue.length < 32 then { p with queue := p.queue ++ [{ kind := .word, addr := addr, data := data }] }
  else { p with deferred := putStore p.deferred addr data }

/-- R165: a STATUS write is offered; with 24 or more entries queued it is skipped. -/
def offerStatusTo (addr : Nat) (data : List Byte) (p : Path) : Path :=
  if p.queue.any (sameAddress addr) then { p with queue := replaceData addr data p.queue }
  else if p.queue.length < 24 then { p with queue := p.queue ++ [{ kind := .status, addr := addr, data := data }] }
  else p

/-- R165: a RECORD write is admitted only while fewer than 24 entries are queued. -/
def admitsRecord (p : Path) : Bool := decide (p.queue.length < 24)

/-- A RECORD write admitted at the tail. -/
def putRecordWrite (addr : Nat) (data : List Byte) (p : Path) : Path :=
  { p with queue := p.queue ++ [{ kind := .record, addr := addr, data := data }] }

/-- R166: the deferred content with the lowest address enters at the tail as an entry leaves by issue. -/
def enterDeferred (p : Path) : Path :=
  match p.deferred with
  | [] => p
  | (addr, data) :: rest =>
    { p with deferred := rest, queue := p.queue ++ [{ kind := .word, addr := addr, data := data }] }

/-- A part-written word of the setup block offered, by its offset (R164, R171). -/
def offerWord (offset : Nat) (data : List Byte) (s : State) : State :=
  modPath (offerWordTo (setupBase s.setup.strap + offset) data) s

/-- A status block offered (R189). -/
def offerStatus (offset : Nat) (data : List Byte) (s : State) : State :=
  modPath (offerStatusTo (setupBase s.setup.strap + offset) data) s

/-! ## Conditions and attention (R184 to R187) -/

/-- The condition word of an owner. -/
def condWordOf (st : Status) : Owner → CondWord
  | .chan c => st.words.get c
  | .part => st.part

/-- The status unit with an owner's condition word replaced. -/
def setCondWord (o : Owner) (w : CondWord) (st : Status) : Status :=
  match o with
  | .chan c => { st with words := st.words.set c w }
  | .part => { st with part := w }

/-- R187: the flag of an owner, set while any condition of its latched set is enabled in the mask. -/
def attentionFlag (st : Status) : Owner → Bool
  | .chan c => decide ((st.words.get c).latched &&& st.maskChan ≠ 0)
  | .part => decide (st.part.latched &&& st.maskPart.setWidth 16 ≠ 0)

/-- R187, R198: the attention summary. -/
def attentionOf (st : Status) : BitVec 17 :=
  BitVec.ofNat 17 ((allOwners.map fun o => flagAt (ownerIndex o) (attentionFlag st o)).sum)

/-- R187: the summary is recomputed; if it changes, its word is offered. -/
def refreshAttention (s : State) : State :=
  if attentionOf s.status = s.status.summary then s
  else
    offerWord attentionAt (attentionWord (attentionOf s.status))
      (modStatus (fun st => { st with summary := attentionOf st }) s)

/-- R185, R187: a latched set takes a new value; if that is a change, its word is offered and the summary recomputed. That the
condition word is offered before the summary word is the model's choice (log 39). -/
def setLatched (o : Owner) (v : BitVec 16) (s : State) : State :=
  if v = (condWordOf s.status o).latched then s
  else
    refreshAttention
      (offerWord (conditionAt (ownerIndex o)) (conditionWord v)
        (modStatus (fun st => setCondWord o { condWordOf st o with latched := v } st) s))

/-- R184: an event sets its condition in its owner's set. -/
def latchBit (o : Owner) (bit : Nat) (s : State) : State :=
  setLatched o ((condWordOf s.status o).latched ||| condSet bit) s

/-- R184: a channel condition is latched. -/
def latchChan (c : Chan) (k : ChanCond) (s : State) : State := latchBit (.chan c) (chanCondBit k) s

/-- R184: a part-wide condition is latched. -/
def latchPart (k : PartCond) (s : State) : State := latchBit .part (partCondBit k) s

/-- R137: the ring is blocked. -/
def ringBlocked (r : Ring) : Bool :=
  match r.fill with
  | .blocked _ => true
  | .filling _ => false
  | .none => false

/-- The level conditions of an owner that are present (R32, R137, R184). -/
def presentSet (s : State) : Owner → BitVec 16
  | .chan c => if (s.chan c).record.state = .stalled then condSet (chanCondBit .stall) else 0
  | .part => if ringBlocked s.ring then condSet (partCondBit .ringBlocked) else 0

/-- R186: a read returned OK removes the conditions that `shown`, the published copy at its issue, holds and that are
not present. -/
def clearShown (o : Owner) (shown : BitVec 16) (s : State) : State :=
  setLatched o ((condWordOf s.status o).latched &&& ~~~(shown &&& ~~~presentSet s o)) s

/-- A channel's counters changed by `f` (R188). -/
def modCounters (c : Chan) (f : ChanCounters → ChanCounters) (s : State) : State :=
  modStatus (fun st => { st with counters := st.counters.set c (f (st.counters.get c)) }) s

/-- The part-wide counters changed by `f` (R188). -/
def modPartCounters (f : PartCounters → PartCounters) (s : State) : State :=
  modStatus (fun st => { st with partCounters := f st.partCounters }) s

/-- R187: the ATTN line. -/
def attnPin (s : State) : Bool := !s.resetLine && decide (s.status.summary ≠ 0)

/-! ## Records and flushes (R130, R131, R139) -/

/-- R131: the loss episode is opened or extended at millisecond `now`. -/
def extendLoss (now : Word32) : Option Loss → Loss
  | none => { count := 1, first := now, last := now }
  | some l => { l with count := sat32 (l.count + 1), last := now }

/-- R130, R131: a record enters the record queue, or is lost when the queue holds 64. -/
def produce (r : Record) (s : State) : State :=
  if s.ring.queue.length < 64 then modRing (fun g => { g with queue := g.queue ++ [r] }) s
  else
    modRing (fun g => { g with loss := some (extendLoss s.ms g.loss) })
      (latchPart .recordsLost (modPartCounters (fun k => { k with recordsLost := sat16 (k.recordsLost + 1) }) s))

/-- The places assigned of slot `i`. -/
def placesOf (r : Ring) (i : Nat) : Nat := ((r.slots[i]?).map Slot.places).getD 0

/-- The state of slot `i`; FREE where there is no such slot. -/
def slotStateOf (r : Ring) (i : Nat) : SlotState := ((r.slots[i]?).map Slot.state).getD .free

/-- The ring with slot `i` replaced. -/
def setSlot (i : Nat) (sl : Slot) (r : Ring) : Ring := { r with slots := r.slots.set i sl }

/-- R139: records await release: some are queued, or the FILLING slot has 1 to B − 1 places assigned. -/
def recordsAwait (b : Nat) (r : Ring) : Bool :=
  !r.queue.isEmpty ||
    match r.fill with
    | .filling i => decide (1 ≤ placesOf r i) && decide (placesOf r i < b)
    | .blocked _ => false
    | .none => false

/-- The held B (0 before geometry is held). -/
def heldB (s : State) : Nat := (s.setup.geometry.map Geometry.b).getD 0

/-- R139: a flush request that finds the ring as `found` sets the flag or is discarded; the ring writer takes none while
RESET_PART awaits it (R143). -/
def requestFlushOn (found : Ring) (s : State) : State :=
  if s.ring.resetWait then s
  else if ringBlocked found || recordsAwait (heldB s) found then modRing (fun r => { r with flushPending := true }) s
  else s

/-- R139: a flush request that finds the ring as it stands. -/
def requestFlush (s : State) : State := requestFlushOn s.ring s

/-- R140: a pending flush is discarded when the ring is not blocked, the queue is empty and the FILLING slot has no
place assigned. -/
def discardFlush (r : Ring) : Ring :=
  match r.fill with
  | .filling i => if r.queue.isEmpty && decide (placesOf r i = 0) then { r with flushPending := false } else r
  | .blocked _ => r
  | .none => r

/-! ## Held trailers (R19 to R21, R163) -/

/-- A beat rewritten with a word, all eight enables set (R19). -/
def rewriteBeat (i : Nat) (w : Word64) (beats : List Beat) : List Beat := beats.set i { data := w, enables := 255 }

/-- A write with beat `i` rewritten. -/
def rewriteBody (i : Nat) (w : Word64) : Body → Body
  | .write beats => .write (rewriteBeat i w beats)
  | .read n => .read n

/-- The held trailer of entry `e` of channel `c`. -/
def heldOf (s : State) (c : Chan) (e : Fin 2) : Option HeldTrailer := (s.chan c).held.find? fun h => decide (h.entry = e)

/-- R163: transaction `id` is marked not held, its body changed by `f`. -/
def releaseTxn (id : Nat) (f : Body → Body) (p : Path) : Path :=
  { p with list := p.list.map fun t => if t.id = id then { t with held := false, body := f t.body } else t }

/-- R19, R20, R163: a held trailer leaves the channel's list with `w` in its trailer beat, its timer with it. -/
def releaseTrailer (c : Chan) (h : HeldTrailer) (w : Word64) (s : State) : State :=
  modChan c (fun ch => { ch with held := ch.held.filter fun k => decide (k ≠ h) })
    (modPath (releaseTxn h.txn (rewriteBody h.beat w)) s)

/-- R21: every trailer in the channel's list is released with ABORTED and the channel's capture state dropped. -/
def dropCapture (c : Chan) (s : State) : State :=
  modCapture c (fun _ => Capture.empty)
    ((s.chan c).held.foldl (fun t h => releaseTrailer c h (plainWord .aborted) t) s)

/-! ## Position (R38) -/

/-- R38: the position of encoder count `count`, in µm. -/
def position (count headCount : Word32) (scale : Nat) : Nat :=
  min ((distance count headCount * scale + 32768) / 65536) 4294967295

/-! ## Order among channels -/

/-- `x` put in place by rank. -/
def insertByRank (rank : Chan → Nat) (x : Chan) : List Chan → List Chan
  | [] => [x]
  | y :: ys => if rank x ≤ rank y then x :: y :: ys else y :: insertByRank rank x ys

/-- The channels in the order of their ranks. -/
def sortByRank (rank : Chan → Nat) : List Chan → List Chan
  | [] => []
  | x :: xs => insertByRank rank x (sortByRank rank xs)

/-- The channels of a mask in the order in which a command's delivery reaches them: any order (log 12). -/
def deliveryOrder (n : Nat) (mask : BitVec 16) : List Chan :=
  sortByRank (fun c => Config.deliveryRank n c.val) (allChans.filter fun c => mask.getLsbD c.val)

end Sys2Proof.Machine
end

