-- ==== Sys2Proof/Machine/Operands.lean ====
section
/-! DEFINITION. What the part reads from addresses, line headers and staged sections (R1, R2, R160, R175 to R177, R193 to R197). -/

namespace Sys2Proof.Machine

/-! ## Windows and slots (R1) -/

/-- R1: the slot size, ceil((40 + W) / 64) × 64. -/
def slotSize (w : Nat) : Nat := (40 + w + 63) / 64 * 64

/-- The slot and the offset in it of address `a` in a ring of `n` slots at `base`. -/
def slotHit (base n size a : Nat) : Option (Nat × Nat) :=
  if base ≤ a ∧ a < base + n * size then some ((a - base) / size, (a - base) % size) else none

/-- The kinds of beat of a slot, R1. `beatNo` counts header and pixel beats together, from 0. -/
inductive BeatKind where
  | content (beatNo : Nat)
  | trailer
  | padding
  deriving DecidableEq, Repr

/-- R1: the kind of the beat at an offset. -/
def beatKind (w offset : Nat) : BeatKind :=
  if offset < 32 + w then .content (offset / 8) else if offset < 40 + w then .trailer else .padding

/-- The regions that a beat of a system-side write can fall in, R160 (the ring's writes are handed to no block). -/
inductive Region where
  | line (c : Chan) (slot offset : Nat)
  | replay (slot offset : Nat)
  | setup (offset : Nat)
  | elsewhere
  deriving DecidableEq, Repr

/-- The line window that address `a` falls in, with its slot and offset. -/
def lineHit (g : Geometry) (a : Nat) : Option (Chan × Nat × Nat) :=
  allChans.findSome? fun c => (slotHit (g.lineBase.get c) (g.lineN.get c) (slotSize g.w) a).map fun h => (c, h)

/-- R160: the region of address `a`. -/
def regionOf (s : State) (a : Nat) : Region :=
  if setupBase s.setup.strap ≤ a ∧ a < setupBase s.setup.strap + setupSize then .setup (a - setupBase s.setup.strap)
  else
    match s.setup.geometry with
    | none => .elsewhere
    | some g =>
      match lineHit g a with
      | some (c, slot, offset) => .line c slot offset
      | none =>
        match slotHit g.replayBase g.replayN (slotSize g.w) a with
        | some (slot, offset) => .replay slot offset
        | none => .elsewhere

/-- The held W (0 before geometry is held). -/
def heldW (s : State) : Nat := (s.setup.geometry.map Geometry.w).getD 0

/-! ## Line headers (R2, R194) -/

/-- The line sequence. -/
def lineSeq (e : Entry) : Word32 := BitVec.ofNat 32 (fieldAt e.buffer 0 4)

/-- The encoder count. -/
def lineCount (e : Entry) : Word32 := BitVec.ofNat 32 (fieldAt e.buffer 8 4)

/-- The pixel count. -/
def linePixels (e : Entry) : Nat := fieldAt e.buffer 6 2

/-- The flag HOT. -/
def lineHot (e : Entry) : Bool := (readStore 0 e.buffer 12).getLsbD 0

/-- The flag LAMP_FAULT. -/
def lineLamp (e : Entry) : Bool := (readStore 0 e.buffer 12).getLsbD 1

/-- R2: the channel that strand and face values name; none where either is above 3. -/
def headerChan (strand face : Nat) : Option Nat := if strand ≤ 3 ∧ face ≤ 3 then some (4 * strand + face) else none

/-- The header's channel. -/
def lineChan (e : Entry) : Option Nat := headerChan (fieldAt e.buffer 4 1) (fieldAt e.buffer 5 1)

/-- Pixel p_c: the byte at offset 32 + c (R47). -/
def pixel (e : Entry) (c : Nat) : Nat := (readStore 0 e.buffer (32 + c)).toNat

/-! ## Staged sections (R197) -/

/-- An `n`-byte field of the staged copy. -/
def staged (m : Store Byte) (offset n : Nat) : Nat := fieldAt m offset n

/-- R197: the geometry section. -/
def stagedGeometry (m : Store Byte) : Geometry :=
  { w := staged m 0xAA 2
    lineBase := Bank16.ofFn fun c => staged m (8 * c.val) 8
    lineN := Bank16.ofFn fun c => staged m (0x80 + 2 * c.val) 2
    replayBase := staged m 0xA0 8
    replayN := staged m 0xA8 2
    b := staged m 0xAC 2
    s := staged m 0xAE 1
    ringBase := staged m 0xB0 8
    mf := (List.range 8).map fun i => staged m (0xB8 + i) 1 }

/-- R197: a channel section at `a`, its numbers as staged. -/
def stagedChan (m : Store Byte) (a : Nat) : ChanParams :=
  { mLo := staged m a 1, mHi := staged m (a + 1) 1, satLevel := staged m (a + 2) 1, k := staged m (a + 3) 1
    obf := staged m (a + 4) 2, dfloor := staged m (a + 6) 2, a := staged m (a + 8) 1, l := staged m (a + 9) 1
    wu := staged m (a + 10) 1, br := staged m (a + 11) 1, rw := staged m (a + 12) 1, ls := staged m (a + 13) 1
    g := staged m (a + 14) 1, maxSkip := staged m (a + 15) 1, bf := staged m (a + 16) 2, deepM := staged m (a + 18) 2
    bandMax := staged m (a + 20) 1, edgeC := staged m (a + 21) 1, profile := staged m (a + 22) 1
    learn := decide (staged m (a + 23) 1 ≠ 0), bandOff := decide (staged m (a + 24) 1 ≠ 0)
    stallTens := staged m (a + 25) 1, abandonS := staged m (a + 26) 1, holdTens := staged m (a + 27) 1
    pitch := staged m (a + 28) 4, pMin := staged m (a + 32) 4, pMax := staged m (a + 36) 4
    pTol := staged m (a + 40) 2, colP := staged m (a + 42) 2, spot := staged m (a + 44) 2 }

/-- R197: a strand section at `a`. -/
def stagedStrand (m : Store Byte) (a : Nat) : StrandParams :=
  { scale := staged m a 4, offset := staged m (a + 4) 4, merge := staged m (a + 8) 2, pulseMs := staged m (a + 10) 1
    lifeS := staged m (a + 11) 1 }

/-- R177, R197: a condition code; a value above 2 becomes ANY. -/
def flagCondition (code : Nat) : FlagCondition :=
  match code with
  | 1 => .required
  | 2 => .excluded
  | _ => .any

/-- R197: a profile entry at `a`. -/
def stagedProfile (m : Store Byte) (a : Nat) : Profile :=
  { enabled := decide (staged m a 1 ≠ 0), orientations := readStore 0 m (a + 1)
    inMark := flagCondition (staged m (a + 2) 1), edge := flagCondition (staged m (a + 3) 1)
    classCode := staged m (a + 4) 1, severity := staged m (a + 5) 1, mark := decide (staged m (a + 6) 1 ≠ 0)
    minLength := staged m (a + 8) 4, minWidth := staged m (a + 12) 4, minPeak := staged m (a + 16) 2
    minArea := staged m (a + 18) 2 }

/-- The part-wide section, R197. -/
structure PartSection where
  batchAge : Nat
  flushOnTail : Bool
  code : Nat
  maskChan : BitVec 16
  maskPart : BitVec 8
  deriving DecidableEq, Repr

/-- R197: the part-wide section as staged. -/
def stagedPart (m : Store Byte) : PartSection :=
  { batchAge := staged m partSectionAt 2, flushOnTail := decide (staged m (partSectionAt + 2) 1 ≠ 0)
    code := staged m (partSectionAt + 3) 1, maskChan := BitVec.ofNat 16 (staged m (partSectionAt + 4) 2)
    maskPart := readStore 0 m (partSectionAt + 6) }

/-! ## Clamping (R176, R177) -/

/-- R177: a value below the range takes the lower end, a value above it the upper end. -/
def clampTo (lo hi v : Nat) : Nat := max lo (min hi v)

/-- R177: m_hi lowered while W − m_lo − m_hi is below 32. -/
def clampHi (w mLo mHi : Nat) : Nat := min (min 255 mHi) (w - 32 - min 255 mLo)

/-- R177: m_lo lowered when m_hi has reached 0. -/
def clampLo (w mLo mHi : Nat) : Nat := min (min 255 mLo) (w - 32 - clampHi w mLo mHi)

/-- R176, R177: a channel section brought into its ranges, for the W in use. -/
def clampChan (w : Nat) (p : ChanParams) : ChanParams :=
  let pMin := clampTo 2000 40000 p.pMin
  let pMax := max pMin (clampTo 2000 40000 p.pMax)
  { mLo := clampLo w p.mLo p.mHi, mHi := clampHi w p.mLo p.mHi, satLevel := clampTo 1 255 p.satLevel
    obf := clampTo 1 256 p.obf, dfloor := clampTo 256 16384 p.dfloor, k := clampTo 1 32 p.k, a := clampTo 1 8 p.a
    l := clampTo 1 255 p.l, wu := clampTo 0 63 p.wu, br := clampTo 0 15 p.br, rw := clampTo 1 16 p.rw
    ls := clampTo 0 8 p.ls, g := clampTo 0 15 p.g, maxSkip := clampTo 1 255 p.maxSkip, bf := clampTo 128 256 p.bf
    deepM := clampTo 256 16384 p.deepM, bandMax := clampTo 2 64 p.bandMax, edgeC := clampTo 0 64 p.edgeC
    profile := clampTo 0 3 p.profile, learn := p.learn, bandOff := p.bandOff, stallTens := clampTo 1 255 p.stallTens
    abandonS := clampTo 1 255 p.abandonS, holdTens := clampTo 1 255 p.holdTens
    pitch := clampTo pMin pMax (clampTo 2000 40000 p.pitch), pMin := pMin, pMax := pMax, pTol := clampTo 0 10000 p.pTol
    colP := clampTo 10 2000 p.colP, spot := clampTo 0 65535 p.spot }

/-- R176, R177: a strand section brought into its ranges. -/
def clampStrand (p : StrandParams) : StrandParams :=
  { scale := clampTo 1 4294967295 p.scale, offset := clampTo 0 2147483647 p.offset, merge := clampTo 0 65535 p.merge
    pulseMs := clampTo 1 255 p.pulseMs, lifeS := clampTo 1 60 p.lifeS }

/-- R176, R177: a profile entry brought into its ranges (its conditions were brought to ANY as they were read). -/
def clampProfile (p : Profile) : Profile :=
  { p with classCode := clampTo 1 63 p.classCode, severity := clampTo 1 3 p.severity }

/-- R176, R177: the part-wide section brought into its ranges. -/
def clampPart (p : PartSection) : PartSection :=
  { p with batchAge := clampTo 0 1000 p.batchAge, code := clampTo 0 7 p.code }

/-- The numeric fields of a channel section. -/
def chanNumbers (p : ChanParams) : List Nat :=
  [p.mLo, p.mHi, p.satLevel, p.obf, p.dfloor, p.k, p.a, p.l, p.wu, p.br, p.rw, p.ls, p.g, p.maxSkip, p.bf, p.deepM,
    p.bandMax, p.edgeC, p.profile, p.stallTens, p.abandonS, p.holdTens, p.pitch, p.pMin, p.pMax, p.pTol, p.colP, p.spot]

/-- The numeric fields of a strand section. -/
def strandNumbers (p : StrandParams) : List Nat := [p.scale, p.offset, p.merge, p.pulseMs, p.lifeS]

/-- R177: each field whose value is changed counts 1. -/
def changedFields (a b : List Nat) : Nat := ((List.zip a b).filter fun p => decide (p.1 ≠ p.2)).length

/-- Clamped fields of a channel section. -/
def chanClamped (w : Nat) (p : ChanParams) : Nat := changedFields (chanNumbers p) (chanNumbers (clampChan w p))

/-- Clamped fields of a strand section. -/
def strandClamped (p : StrandParams) : Nat := changedFields (strandNumbers p) (strandNumbers (clampStrand p))

/-- Clamped fields of the profile entry at `a`, its two conditions included. -/
def profileClamped (m : Store Byte) (a : Nat) : Nat :=
  let p := stagedProfile m a
  changedFields [staged m (a + 2) 1, staged m (a + 3) 1, p.classCode, p.severity]
    [if staged m (a + 2) 1 ≤ 2 then staged m (a + 2) 1 else 0, if staged m (a + 3) 1 ≤ 2 then staged m (a + 3) 1 else 0,
      (clampProfile p).classCode, (clampProfile p).severity]

/-- Clamped fields of the part-wide section. -/
def partClamped (p : PartSection) : Nat :=
  changedFields [p.batchAge, p.code] [(clampPart p).batchAge, (clampPart p).code]

/-- R177: the clamped-field count of an APPLY. -/
def clampedCount (w : Nat) (m : Store Byte) : Nat :=
  ((List.range 16).map fun c => chanClamped w (stagedChan m (channelSectionAt c))).sum +
    ((List.range 4).map fun k => strandClamped (stagedStrand m (strandSectionAt k))).sum +
    ((List.range 4).map fun p => ((List.range 16).map fun e => profileClamped m (profileAt p e)).sum).sum +
    partClamped (stagedPart m)

/-- The four profile tables, clamped. -/
def clampedProfiles (m : Store Byte) : Bank4 (Bank16 Profile) :=
  Bank4.ofFn fun p => Bank16.ofFn fun e => clampProfile (stagedProfile m (profileAt p.val e.val))

/-- R179: channel `c`'s new set, clamped. -/
def clampedSet (w : Nat) (m : Store Byte) (c : Chan) : ParamSet :=
  { chan := clampChan w (stagedChan m (channelSectionAt c.val))
    strand := clampStrand (stagedStrand m (strandSectionAt (strandOf c).val))
    profiles := clampedProfiles m }

/-! ## Checks of the geometry section (R175) -/

/-- The extents that check 5 tests, each a base and a size: the line windows, the replay window, the ring and the setup
block. -/
def extents (strap : BitVec 4) (g : Geometry) : List (Nat × Nat) :=
  (allChans.map fun c => (g.lineBase.get c, g.lineN.get c * slotSize g.w)) ++
    [(g.replayBase, g.replayN * slotSize g.w), (g.ringBase, g.s * g.b * 32), (setupBase strap, setupSize)]

/-- Two extents share no byte. -/
def disjoint (a b : Nat × Nat) : Bool := decide (a.1 + a.2 ≤ b.1) || decide (b.1 + b.2 ≤ a.1)

/-- No two of a list share a byte. -/
def pairwiseDisjoint : List (Nat × Nat) → Bool
  | [] => true
  | x :: xs => xs.all (disjoint x) && pairwiseDisjoint xs

/-- R197: a code of an MF line function. -/
def mfCodeKnown (code : Nat) : Bool :=
  decide (code = 0) || (decide (16 ≤ code) && decide (code ≤ 19)) || (decide (32 ≤ code) && decide (code ≤ 35))

/-- R175: check number `i`. -/
def geometryCheck (strap : BitVec 4) (g : Geometry) (i : Nat) : Bool :=
  match i with
  | 1 => decide (64 ≤ g.w) && decide (g.w ≤ 1024) && decide (g.w % 64 = 0)
  | 2 => allChans.all (fun c => decide (g.lineBase.get c % 64 = 0)) && decide (g.replayBase % 64 = 0) &&
      decide (g.ringBase % 64 = 0)
  | 3 => allChans.all (fun c => decide (4 ≤ g.lineN.get c) && decide (g.lineN.get c ≤ 4096)) &&
      decide (4 ≤ g.replayN) && decide (g.replayN ≤ 4096)
  | 4 => decide (4 ≤ g.b) && decide (g.b ≤ 256) && decide (2 ≤ g.s) && decide (g.s ≤ 64)
  | 5 => (extents strap g).all (fun x => decide (x.1 + x.2 ≤ 1099511627776)) && pairwiseDisjoint (extents strap g)
  | 6 => g.mf.all mfCodeKnown
  | _ => true

/-- R175: the number of the first failing check, none where all pass. -/
def failedCheck (strap : BitVec 4) (g : Geometry) : Option Nat :=
  [1, 2, 3, 4, 5, 6].find? fun i => !geometryCheck strap g i

/-! ## MF lines (R155, R156) -/

/-- The code of MF line `i`'s function: OFF before geometry is held. -/
def mfFunction (s : State) (i : Nat) : Nat :=
  match s.setup.geometry with
  | some g => (g.mf[i]?).getD 0
  | none => 0

/-- R156: the hold of a strand is asserted while an MF line of function HOLD for it is high. -/
def holdAsserted (s : State) (k : Strand) : Bool :=
  !s.resetLine && (List.range 8).any fun i => decide (mfFunction s i = 32 + k.val) && s.mfIn.getLsbD i

/-- R155, R157: what MF line `i` is driven to, none where it is not driven. -/
def markerPin (s : State) (i : Nat) : Option Bool :=
  match allStrands.find? fun k => decide (mfFunction s i = 16 + k.val) with
  | some k => some (!s.resetLine && (s.strands.get k).pulse.isSome)
  | none => none

/-! ## The command word (R197) -/

/-- The code of the staged command word. -/
def stagedCode (m : Store Byte) : Byte := readStore 0 m commandWordAt

/-- The tag of the staged command word. -/
def stagedTag (m : Store Byte) : Byte := readStore 0 m (commandWordAt + 2)

/-- The channel mask of the staged command word. -/
def stagedMask (m : Store Byte) : BitVec 16 := BitVec.ofNat 16 (staged m (commandWordAt + 3) 2)

/-- The host's write of the command word: all eight enables set, the reserved bytes 0. -/
def commandBeat (code tag : Byte) (mask : BitVec 16) : Beat :=
  { data := beatOf ([code, 0, tag] ++ leBytes 2 mask.toNat ++ zeros 3), enables := 255 }

end Sys2Proof.Machine
end

