-- ==== Sys2Proof/Machine/Marks.lean ====
section
/-! DEFINITION. The mark scheduler (R145 to R154). -/

namespace Sys2Proof.Machine

/-- R148: two triggers lie within the merge window of each other. -/
def withinMerge (window : Nat) (t u : Word32) : Bool := decide (min (distance t u) (distance u t) ≤ window)

/-- R148: a trigger at the last count or behind it is LATE (no trigger is LATE while the last count is absent, which no
reachable request meets: log 28). -/
def isLate (k : StrandState) (trigger : Word32) : Bool :=
  match k.lastCount with
  | some n => atOrAhead n trigger
  | none => false

/-- R148: the answer to a request, by the first test that holds. -/
def markAnswer (k : StrandState) (trigger : Word32) : MarkStatus :=
  if isLate k trigger then .late
  else if k.queue.any (fun m => withinMerge k.merge m.trigger trigger) then .merged
  else if 8 ≤ k.queue.length then .dropped
  else .scheduled

/-- The distance ahead of a trigger, R149. -/
def distanceAhead (last : Option Word32) (trigger : Word32) : Nat := distance trigger (last.getD 0)

/-- R149: an entry put in its place by distance ahead. -/
def insertMark (last : Option Word32) (m : Mark) : List Mark → List Mark
  | [] => [m]
  | x :: xs =>
    if distanceAhead last m.trigger < distanceAhead last x.trigger then m :: x :: xs else x :: insertMark last m xs

/-- R145, R149: the entry of a SCHEDULED request. -/
def newMark (now : Word32) (k : StrandState) (c : Chan) (trigger : Word32) : Mark :=
  { trigger := trigger, chan := c, expiry := now + BitVec.ofNat 32 (1000 * k.lifeS) }

/-- R148: the effect of a request on the scheduler of its strand and on the part-wide status. -/
def requestMark (c : Chan) (trigger : Word32) (s : State) : State :=
  match markAnswer (s.strands.get (strandOf c)) trigger with
  | .late => latchPart .markLate (modPartCounters (fun k => { k with marksLate := sat16 (k.marksLate + 1) }) s)
  | .dropped => latchPart .markDropped (modPartCounters (fun k => { k with marksDropped := sat16 (k.marksDropped + 1) }) s)
  | .scheduled =>
    modStrand (strandOf c)
      (fun k => { k with queue := insertMark k.lastCount (newMark s.ms k c trigger) k.queue }) s
  | .merged => s
  | .none => s
  | .suppressed => s

/-- R146: a held-back MERGE takes effect at the moment the queue is empty. -/
def settleMerge (k : StrandState) : StrandState :=
  match k.mergeHeld with
  | some m => if k.queue.isEmpty then { k with merge := m, mergeHeld := none } else k
  | none => k

/-- R146: an APPLY's new settings. A MERGE greater than the one in use is held back while the queue holds entries. -/
def applyStrand (p : StrandParams) (k : StrandState) : StrandState :=
  if p.merge ≤ k.merge ∨ k.queue = [] then
    { k with merge := p.merge, mergeHeld := none, pulseMs := p.pulseMs, lifeS := p.lifeS }
  else { k with mergeHeld := some p.merge, pulseMs := p.pulseMs, lifeS := p.lifeS }

/-- R151: the pulse after a firing at `now`: started, or extended if the candidate end is later. -/
def firePulse (now : Word32) (k : StrandState) : Word32 :=
  let candidate := now + BitVec.ofNat 32 k.pulseMs
  match k.pulse with
  | none => candidate
  | some e => if ahead candidate e then candidate else e

/-- R147, R150: the last count becomes the handed count, and every entry due at it fires. -/
def countLine (now count : Word32) (k : StrandState) : StrandState :=
  let due := k.queue.any fun m => atOrAhead count m.trigger
  settleMerge
    { k with
      lastCount := some count
      queue := k.queue.filter fun m => !atOrAhead count m.trigger
      pulse := if due then some (firePulse now k) else k.pulse }

/-- R153: the entries of a channel removed, each counted as discarded. -/
def removeMarks (c : Chan) (s : State) : State :=
  let n := ((s.strands.get (strandOf c)).queue.filter fun m => decide (m.chan = c)).length
  modPartCounters (fun k => { k with marksDiscarded := sat16 (k.marksDiscarded + n) })
    (modStrand (strandOf c)
      (fun k => settleMerge { k with queue := k.queue.filter fun m => decide (m.chan ≠ c) }) s)

/-- R154: RESET_PART empties the queue without counting; a held-back MERGE takes effect (R146). -/
def resetPartStrand (k : StrandState) : StrandState :=
  settleMerge { k with queue := [], lastCount := none, pulse := none }

/-- PULSE_END (R151): the millisecond count has reached an ACTIVE pulse's end, and the pulse becomes IDLE. -/
def execPulseEnd (k : Strand) (s : State) : Host.Outcome State Fault Refusal :=
  match (s.strands.get k).pulse with
  | some e => if atOrAhead s.ms e then .next (modStrand k (fun t => { t with pulse := none }) s) else .next s
  | none => .next s

/-- An entry of this trigger has reached its expiry time, R152. -/
def markExpired (now trigger : Word32) (m : Mark) : Bool := decide (m.trigger = trigger) && atOrAhead now m.expiry

/-- MARK_EXPIRY (R152): an entry that has reached its expiry time is removed, MARK_EXPIRED set and counted. -/
def execMarkExpiry (k : Strand) (trigger : Word32) (s : State) : Host.Outcome State Fault Refusal :=
  if (s.strands.get k).queue.any (markExpired s.ms trigger) then
    .next (latchPart .markExpired
      (modPartCounters (fun c => { c with marksExpired := sat16 (c.marksExpired + 1) })
        (modStrand k (fun t => settleMerge { t with queue := t.queue.filter fun m => !markExpired s.ms trigger m }) s)))
  else .next s

end Sys2Proof.Machine
end

