-- ==== Sys2Proof/Machine/Classifier.lean ====
section
/-! DEFINITION. The classifier (R111 to R127). -/

namespace Sys2Proof.Machine

/-- R113: last pos − first pos. -/
def closureLength (k : Closure) : Nat := k.lastPos - k.firstPos

/-- R113: the width in µm. -/
def closureWidth (p : ChanParams) (k : Closure) : Nat := (k.hi - k.lo + 1) * p.colP

/-- R114: a closure that touches the face's edge columns. -/
def isEdge (w : Nat) (p : ChanParams) (k : Closure) : Bool :=
  decide (1 ≤ p.edgeC) && (decide (k.lo + 1 ≤ p.mLo + p.edgeC) || decide (w ≤ k.hi + p.mHi + p.edgeC))

/-- The orientations, R115. -/
inductive Orientation where
  | spot
  | longitudinal
  | transverse
  | oblique
  deriving DecidableEq, Repr

/-- R197: the bit of an orientation in an orientation set. -/
def orientationBit : Orientation → Nat
  | .spot => 0
  | .longitudinal => 1
  | .transverse => 2
  | .oblique => 3

/-- R115: the orientation of a closure. -/
def orientationOf (p : ChanParams) (k : Closure) : Orientation :=
  if k.band then .transverse
  else if closureLength k < p.spot ∧ closureWidth p k < p.spot then .spot
  else if 2 * closureWidth p k ≤ closureLength k then .longitudinal
  else if 2 * closureLength k ≤ closureWidth p k then .transverse
  else .oblique

/-- R117: a condition on a flag. -/
def meetsFlag (q : FlagCondition) (b : Bool) : Bool :=
  match q with
  | .any => true
  | .required => b
  | .excluded => !b

/-- R117: an entry matches a closure. -/
def profileMatches (w : Nat) (p : ChanParams) (k : Closure) (e : Profile) : Bool :=
  e.enabled && e.orientations.getLsbD (orientationBit (orientationOf p k)) && decide (e.minLength ≤ closureLength k) &&
    decide (e.minWidth ≤ closureWidth p k) && decide (e.minPeak ≤ k.peak) && decide (e.minArea ≤ k.area) &&
    meetsFlag e.inMark k.inMark && meetsFlag e.edge (isEdge w p k)

/-- The profile table a number names; the number is 0 to 3 once clamped (R177). -/
def tableIndex (n : Nat) : Fin 4 :=
  match n with
  | 0 => 0
  | 1 => 1
  | 2 => 2
  | _ => 3

/-- R118: the first entry of the channel's table, in index order, that matches. -/
def matchingEntry (w : Nat) (set : ParamSet) (k : Closure) : Option Profile :=
  (set.profiles.get (tableIndex set.chan.profile)).toList.find? (profileMatches w set.chan k)

/-- R120: the trigger of a closure's mark request. -/
def closureTrigger (set : ParamSet) (k : Closure) : Word32 := k.firstCount + BitVec.ofNat 32 set.strand.offset

/-- R120: the mark status of a matched closure. -/
def closureMark (c : Chan) (set : ParamSet) (e : Profile) (k : Closure) (s : State) : MarkStatus :=
  if e.mark then
    match (s.chan c).record.mode with
    | .live => markAnswer (s.strands.get (strandOf c)) (closureTrigger set k)
    | .replay => .suppressed
  else .none

/-- R120: the request a matched closure makes, if it makes one. -/
def requestFor (c : Chan) (set : ParamSet) (e : Profile) (k : Closure) (s : State) : State :=
  if e.mark then
    match (s.chan c).record.mode with
    | .live => requestMark c (closureTrigger set k) s
    | .replay => s
  else s

/-- R121: the DEFECT record of a matched closure, its serial already taken. -/
def defectOf (c : Chan) (set : ParamSet) (e : Profile) (k : Closure) (mark : MarkStatus) (s : State) : DefectRecord :=
  { chan := c, classCode := e.classCode, severity := e.severity, flags := defectFlags k (isEdge (heldW s) set.chan k)
    mark := mark, billet := (s.chan c).record.billet, serial := (s.chan c).record.serial, firstPos := k.firstPos
    length := closureLength k, lo := k.lo, hi := k.hi, peak := k.peak, area := k.area, lines := k.lines
    closeTime := s.ms }

/-- R119: the next serial is taken. -/
def takeSerial (c : Chan) (s : State) : State := modRecord c (fun r => { r with serial := r.serial + 1 }) s

/-- R118, BELOW_CLASS: the closure is counted as discarded. -/
def belowClass (c : Chan) (s : State) : State :=
  modTallies c (fun t => { t with discarded := sat16 (t.discarded + 1) })
    (modCounters c (fun k => { k with discarded := sat16 (k.discarded + 1) }) s)

/-- R119 to R123: a matched closure takes its serial, makes its request and produces its record. -/
def emitDefect (c : Chan) (set : ParamSet) (e : Profile) (k : Closure) (s : State) : State :=
  let t := takeSerial c s
  produce (.defect (defectOf c set e k (closureMark c set e k t) t)) (requestFor c set e k t)

/-- R111, R118: a closure is classified whole, judged by `set` (R112). -/
def classify (c : Chan) (set : ParamSet) (k : Closure) (s : State) : State :=
  match matchingEntry (heldW s) set k with
  | some e => emitDefect c set e k s
  | none => belowClass c s

end Sys2Proof.Machine
end

