-- ==== Sys2Proof/Machine/BandTracker.lean ====
section
/-! DEFINITION. The band tracker (R70 to R87). -/

namespace Sys2Proof.Machine

/-- R84: the effective pitch from the ring and a channel's active parameters. -/
def effectivePitch (p : ChanParams) (ring : List Nat) : Nat :=
  let raw := if p.learn = true ∧ 4 ≤ ring.length then ring.sum / ring.length else p.pitch
  min p.pMax (max p.pMin raw)

/-- R85: channel `c`'s effective pitch recomputed from its active parameters. -/
def recomputePitch (c : Chan) (s : State) : State :=
  modChan c (fun ch => { ch with band := { ch.band with effPitch := effectivePitch ch.params.chan ch.band.pitchRing } }) s

/-- R85: the pitch ring cleared and the effective pitch recomputed. -/
def clearPitchRing (c : Chan) (s : State) : State :=
  recomputePitch c (modBand c (fun b => { b with pitchRing := [] }) s)

/-- R83: a sample joins the ring as the newest; with 8 the oldest leaves. -/
def insertSample (x : Nat) (ring : List Nat) : List Nat := if ring.length < 8 then ring ++ [x] else ring.drop 1 ++ [x]

/-- R67: a band line's dark summary. -/
structure DarkSummary where
  lo : Nat
  hi : Nat
  peak : Nat
  dark : Nat
  deriving DecidableEq, Repr

/-- R71: a band line opens an episode. -/
def openEpisode (count : Word32) (pos : Nat) (d : DarkSummary) : Episode :=
  { state := .isOpen, firstCount := count, firstPos := pos, lastPos := pos, hullLo := d.lo, hullHi := d.hi
    peak := d.peak, area := sat16 d.dark, lines := 1 }

/-- R72: a band line extends the episode. -/
def extendEpisode (pos : Nat) (d : DarkSummary) (e : Episode) : Episode :=
  { e with
    state := .isOpen, lastPos := max e.lastPos pos, hullLo := min e.hullLo d.lo, hullHi := max e.hullHi d.hi
    peak := max e.peak d.peak, area := sat16 (e.area + d.dark), lines := e.lines + 1 }

/-- R77: the centre of an episode. -/
def episodeCentre (e : Episode) : Nat := (e.firstPos + e.lastPos) / 2

/-- R79: the signed spacing from the previous centre. -/
def spacingOf (centre prev : Nat) : Int := (centre : Int) - (prev : Int)

/-- R79: the number of pitches the spacing comes nearest to, the floor taken towards minus infinity. -/
def pitchNumber (spacing : Int) (pitch : Nat) : Int := Int.fdiv (spacing + ((pitch / 2 : Nat) : Int)) (pitch : Int)

/-- R79: n is 1 to 4 and the deviation at most PTOL. -/
def onPitch (spacing : Int) (pitch tol : Nat) : Bool :=
  decide (1 ≤ pitchNumber spacing pitch) && decide (pitchNumber spacing pitch ≤ 4) &&
    decide ((spacing - pitchNumber spacing pitch * (pitch : Int)).natAbs ≤ tol)

/-- R80: the sample of an on-pitch episode. -/
def pitchSample (spacing : Int) (pitch : Nat) : Nat := (Int.fdiv spacing (pitchNumber spacing pitch)).toNat

/-- R82: the transverse candidate of an episode. -/
def bandClosure (e : Episode) (cause : Cause) (long : Bool) : Closure :=
  { band := true, trackId := none, cause := cause, long := long, firstCount := e.firstCount, firstPos := e.firstPos
    lastPos := e.lastPos, lo := e.hullLo, hi := e.hullHi, peak := e.peak, area := e.area, sum := none, lines := e.lines
    inMark := false, joined := false, clutterSeen := false }

/-- R81: the episode is counted and handed to the classifier as a transverse candidate. -/
def handCandidate (c : Chan) (set : ParamSet) (k : Closure) (s : State) : State :=
  classify c set k (modTallies c (fun t => { t with transverse := sat16 (t.transverse + 1) }) s)

/-- R78: the episode is the billet's reference mark. -/
def acceptReference (c : Chan) (centre : Nat) (s : State) : State :=
  modTallies c (fun t => { t with onPitch := sat16 (t.onPitch + 1) })
    (modBand c (fun b => { b with prevCentre := some centre }) s)

/-- R80, R83: the episode is accepted as a mark, its sample enters the ring and the effective pitch is recomputed. -/
def acceptMark (c : Chan) (centre sample : Nat) (s : State) : State :=
  modTallies c (fun t => { t with onPitch := sat16 (t.onPitch + 1) })
    (recomputePitch c
      (modBand c (fun b => { b with prevCentre := some centre, pitchRing := insertSample sample b.pitchRing }) s))

/-- R77 to R81: an episode that has closed is tested; `set` is the closure's set. -/
def testEpisode (c : Chan) (set : ParamSet) (e : Episode) (cause : Cause) (s : State) : State :=
  let band := (s.chan c).band
  match band.prevCentre with
  | none => acceptReference c (episodeCentre e) s
  | some prev =>
    let spacing := spacingOf (episodeCentre e) prev
    if onPitch spacing band.effPitch set.chan.pTol then acceptMark c (episodeCentre e) (pitchSample spacing band.effPitch) s
    else handCandidate c set (bandClosure e cause false) s

/-- The episode record becomes ABSENT with its fields at 0 (R70). -/
def dropEpisode (c : Chan) (s : State) : State := modBand c (fun b => { b with episode := Episode.none }) s

/-- R74, R75: channel `c`'s episode, if one is open, closes with a cause and is tested. -/
def closeEpisode (c : Chan) (set : ParamSet) (cause : Cause) (s : State) : State :=
  let e := (s.chan c).band.episode
  match e.state with
  | .absent => s
  | .isOpen => testEpisode c set e cause (dropEpisode c s)
  | .ending => testEpisode c set e cause (dropEpisode c s)

/-- R73: an episode of BANDMAX lines or more closes at once as LONG, untested. -/
def closeLong (c : Chan) (set : ParamSet) (e : Episode) (s : State) : State :=
  handCandidate c set (bandClosure e .gap true) (dropEpisode c s)

/-- R72, R73: a band line has extended or opened the episode; at BANDMAX it closes as LONG. -/
def keepOrCloseLong (c : Chan) (set : ParamSet) (e : Episode) (s : State) : State :=
  if set.chan.bandMax ≤ e.lines then closeLong c set e s else modBand c (fun b => { b with episode := e }) s

/-- R71 to R74: an ANALYSED line's band outcome; `d` is the dark summary of a band line. -/
def takeBandOutcome (c : Chan) (set : ParamSet) (count : Word32) (pos : Nat) (d : Option DarkSummary) (s : State) :
    State :=
  let e := (s.chan c).band.episode
  match d with
  | some d =>
    match e.state with
    | .absent => modBand c (fun b => { b with episode := openEpisode count pos d }) s
    | .isOpen => keepOrCloseLong c set (extendEpisode pos d e) s
    | .ending => keepOrCloseLong c set (extendEpisode pos d e) s
  | none =>
    match e.state with
    | .absent => s
    | .isOpen => modBand c (fun b => { b with episode := { e with state := .ending } }) s
    | .ending => closeEpisode c set .gap s

/-- R75: a BLIND request closes the episode and makes the previous centre absent. -/
def blindEpisode (c : Chan) (s : State) : State :=
  modBand c (fun b => { b with prevCentre := none }) (closeEpisode c (s.chan c).params .blind s)

end Sys2Proof.Machine
end

