-- ==== Sys2Proof/Machine/TrackTable.lean ====
section
/-! DEFINITION. The open-track table (R88 to R110). -/

namespace Sys2Proof.Machine

/-- A run of dark columns, R62. -/
structure Run where
  lo : Nat
  hi : Nat
  area : Nat
  peak : Nat
  sum : Nat
  inMark : Bool
  deriving DecidableEq, Repr

/-- What the table takes of a line, R90, with LS and G of the analysis's set. -/
structure LineRuns where
  seq : Word32
  count : Word32
  pos : Nat
  runs : List Run
  clutter : Bool
  ls : Nat
  g : Nat
  deriving DecidableEq, Repr

/-- R92: the track's current span overlaps the run widened by LS. -/
def isCandidate (ls : Nat) (r : Run) (t : Track) : Bool :=
  decide (t.spanLo ≤ r.hi + ls) && decide (r.lo ≤ t.spanHi + ls)

/-- R93: of two tracks, the first the older or of the smaller ID, the one that is older against line `seq`. -/
def olderOf (seq : Word32) (a b : Track) : Track :=
  if distance seq a.firstSeq < distance seq b.firstSeq then b else a

/-- R93: the oldest of a list of tracks in rising ID. -/
def oldestOf (seq : Word32) : List Track → Option Track
  | [] => none
  | t :: ts => some (ts.foldl (olderOf seq) t)

/-- R92, R93: the track that a run extends, of the tracks as they stood before the line. -/
def extendedBy (l : LineRuns) (old : List Track) (r : Run) : Option Track :=
  oldestOf l.seq (old.filter (isCandidate l.ls r))

/-- R95: a run's changes to the record, but for those made once for the line. -/
def addRun (t : Track) (r : Run) : Track :=
  { t with
    area := sat16 (t.area + r.area), peak := max t.peak r.peak, sum := sat32 (t.sum + r.sum)
    overLo := min t.overLo r.lo, overHi := max t.overHi r.hi, inMark := t.inMark || r.inMark }

/-- R95, R96: a track extended by the runs `r :: rs` of a line. -/
def extendTrack (pos : Nat) (t : Track) (r : Run) (rs : List Run) : Track :=
  let u := (r :: rs).foldl addRun t
  { u with
    lastPos := max t.lastPos pos, lines := sat16 (t.lines + 1), gap := 0
    spanLo := rs.foldl (fun m x => min m x.lo) r.lo, spanHi := rs.foldl (fun m x => max m x.hi) r.hi }

/-- The runs of the line that extend track `t`. -/
def runsOf (l : LineRuns) (old : List Track) (t : Track) : List Run :=
  l.runs.filter fun r => decide ((extendedBy l old r).map Track.id = some t.id)

/-- R94: some run has `t` among its candidates and extends another. -/
def isJoinedBy (l : LineRuns) (old : List Track) (t : Track) : Bool :=
  l.runs.any fun r => isCandidate l.ls r t && decide ((extendedBy l old r).map Track.id ≠ some t.id)

/-- R91 to R98, R102: what the line makes of an open track: extended or aged, JOINED and CLUTTER_SEEN set as they fall. -/
def matchTrack (l : LineRuns) (old : List Track) (t : Track) : Track :=
  let u := { t with joined := t.joined || isJoinedBy l old t, clutterSeen := t.clutterSeen || l.clutter }
  match runsOf l old t with
  | [] => { u with gap := t.gap + 1 }
  | r :: rs => extendTrack l.pos u r rs

/-- R98: the track was not extended and its gap exceeds G. -/
def agesOut (g : Nat) (t : Track) : Bool := decide (g < t.gap)

/-- R97: the runs kept for opening. -/
def runsToOpen (l : LineRuns) (old : List Track) : List Run :=
  l.runs.filter fun r => !(old.any (isCandidate l.ls r))

/-- R100: the lowest-numbered FREE entry. -/
def lowestFree (ts : List Track) : Option Nat := (List.range 32).find? fun i => !(ts.any fun t => decide (t.id = i))

/-- R100: the record a run opens. -/
def openTrack (l : LineRuns) (r : Run) (id : Nat) : Track :=
  { id := id, firstSeq := l.seq, firstCount := l.count, firstPos := l.pos, lastPos := l.pos, spanLo := r.lo
    spanHi := r.hi, overLo := r.lo, overHi := r.hi, area := sat16 r.area, peak := r.peak, sum := r.sum, lines := 1
    gap := 0, inMark := r.inMark, joined := false, clutterSeen := l.clutter }

/-- A track put in its place by ID. -/
def insertTrack (t : Track) : List Track → List Track
  | [] => [t]
  | x :: xs => if t.id < x.id then t :: x :: xs else x :: insertTrack t xs

/-- R100, R101: the kept runs open tracks, left to right, until no entry is FREE. -/
def openRuns (l : LineRuns) : List Run → List Track → List Track
  | [], ts => ts
  | r :: rs, ts =>
    match lowestFree ts with
    | some i => openRuns l rs (insertTrack (openTrack l r i) ts)
    | none => ts

/-- R101: the kept runs lost for want of a FREE entry. -/
def lostRuns (opening : Nat) (openNow : Nat) : Nat := opening - (32 - openNow)

/-- R104: what a closure hands the classifier. -/
def trackClosure (cause : Cause) (t : Track) : Closure :=
  { band := false, trackId := some t.id, cause := cause, long := false, firstCount := t.firstCount
    firstPos := t.firstPos, lastPos := t.lastPos, lo := t.overLo, hi := t.overHi, peak := t.peak, area := t.area
    sum := some t.sum, lines := t.lines, inMark := t.inMark, joined := t.joined, clutterSeen := t.clutterSeen }

/-- Channel `c`'s open tracks replaced. -/
def setTracks (c : Chan) (ts : List Track) (s : State) : State := modChan c (fun ch => { ch with tracks := ts }) s

/-- R99, R105, R106: tracks in ascending ID handed to the classifier with a cause. -/
def classifyTracks (c : Chan) (set : ParamSet) (cause : Cause) (ts : List Track) (s : State) : State :=
  ts.foldl (fun u t => classify c set (trackClosure cause t) u) s

/-- R105, R106: a request closes every OPEN track of the channel, judged by its current active set (R112). -/
def closeTracks (c : Chan) (cause : Cause) (s : State) : State :=
  classifyTracks c (s.chan c).params cause (s.chan c).tracks (setTracks c [] s)

/-- R101: lost runs counted, TRACK_FULL set. -/
def countLostRuns (c : Chan) (n : Nat) (s : State) : State :=
  if n = 0 then s
  else latchChan c .trackFull (modCounters c (fun k => { k with trackFull := sat16 (k.trackFull + n) }) s)

/-- R90 to R102: the table takes an ANALYSED line: matching, aging with its GAP closures, opening. -/
def takeLine (c : Chan) (set : ParamSet) (l : LineRuns) (s : State) : State :=
  let old := (s.chan c).tracks
  let after := old.map (matchTrack l old)
  let kept := after.filter fun t => !agesOut l.g t
  let opening := runsToOpen l old
  countLostRuns c (lostRuns opening.length kept.length)
    (classifyTracks c set .gap (after.filter (agesOut l.g)) (setTracks c (openRuns l opening kept) s))

end Sys2Proof.Machine
end

