-- ==== Sys2Proof/Machine/Detection.lean ====
section
/-! DEFINITION. The arithmetic of one line's analysis (R46 to R68). -/

namespace Sys2Proof.Machine

/-- An interior column: its index, its pixel and its background pair (R47, R51). -/
structure Column where
  index : Nat
  p : Nat
  b : Nat
  stuck : Nat
  deriving DecidableEq, Repr

/-- R51: n. -/
def interiorCount (w : Nat) (q : ChanParams) : Nat := w - q.mLo - q.mHi

/-- A column read from the line buffer and the background array. -/
def columnAt (pix : Nat → Nat) (bg : Store (Nat × Nat)) (c : Nat) : Column :=
  { index := c, p := pix c, b := (readStore (0, 0) bg c).1, stuck := (readStore (0, 0) bg c).2 }

/-- R51: the interior, left to right. -/
def interior (w : Nat) (q : ChanParams) (pix : Nat → Nat) (bg : Store (Nat × Nat)) : List Column :=
  (List.range' q.mLo (interiorCount w q)).map (columnAt pix bg)

/-- R52: a saturated column. -/
def saturated (q : ChanParams) (c : Column) : Bool := decide (q.satLevel ≤ c.p)

/-- R52: s. -/
def saturatedCount (q : ChanParams) (cs : List Column) : Nat := (cs.filter (saturated q)).length

/-- R52: the line is obscured. -/
def isObscured (q : ChanParams) (cs : List Column) : Bool := decide (q.obf * cs.length ≤ saturatedCount q cs * 256)

/-- The unsaturated columns. -/
def unsaturated (q : ChanParams) (cs : List Column) : List Column := cs.filter fun c => !saturated q c

/-- R54: the residual. -/
def residual (c : Column) : Int := (c.b : Int) - 256 * (c.p : Int)

/-- R55: the noise estimate M. -/
def noise (q : ChanParams) (cs : List Column) : Nat :=
  ((unsaturated q cs).map fun c => (residual c).natAbs).sum / (unsaturated q cs).length

/-- R56: the threshold before its clamp. -/
def rawThreshold (q : ChanParams) (m : Nat) : Nat := max q.dfloor (q.k * m / 4)

/-- R56: the threshold T. -/
def threshold (q : ChanParams) (m : Nat) : Nat := min (rawThreshold q m) 65535

/-- R57: the flag CLAMPT. -/
def clampedThreshold (q : ChanParams) (m : Nat) : Bool :=
  decide (65535 < rawThreshold q m) || decide (65280 < threshold q m)

/-- R58: a dark column. -/
def isDark (q : ChanParams) (t : Nat) (c : Column) : Bool := !saturated q c && decide ((t : Int) ≤ residual c)

/-- R59: the background moved towards the pixel, the floor taken towards minus infinity. -/
def movedBackground (q : ChanParams) (c : Column) : Nat :=
  ((c.b : Int) + Int.fdiv (256 * (c.p : Int) - (c.b : Int)) ((2 : Int) ^ q.a)).toNat

/-- R60: a dark column whose new count reaches L is updated. -/
def isForced (q : ChanParams) (t : Nat) (c : Column) : Bool := isDark q t c && decide (q.l ≤ c.stuck + 1)

/-- R59 to R61: the background pair an ordinary line leaves. -/
def ordinaryPair (q : ChanParams) (t : Nat) (c : Column) : Nat × Nat :=
  if saturated q c then (c.b, c.stuck)
  else if isDark q t c then if isForced q t c then (movedBackground q c, 0) else (c.b, c.stuck + 1)
  else (movedBackground q c, 0)

/-- R50: the background pair a warm-up line leaves. -/
def warmupPair (q : ChanParams) (c : Column) : Nat × Nat :=
  if saturated q c then (c.b, c.stuck) else (movedBackground q c, 0)

/-- R49: the background pair a seed line leaves. -/
def seedPair (c : Column) : Nat × Nat := (256 * c.p, 0)

/-- An interior column index. -/
def isInterior (w : Nat) (q : ChanParams) (c : Nat) : Bool := decide (q.mLo ≤ c) && decide (c < q.mLo + interiorCount w q)

/-- R48, R51: the array written with the pairs computed for interior columns; margin columns keep theirs. -/
def updatedBackground (w : Nat) (q : ChanParams) (pix : Nat → Nat) (bg : Store (Nat × Nat))
    (pair : Column → Nat × Nat) : Store (Nat × Nat) :=
  storeOfFn (0, 0)
    (fun c => if isInterior w q c then pair (columnAt pix bg c) else readStore (0, 0) bg c) 0 w

/-- R62: the run that a dark column begins. -/
def beginRun (c : Column) : Run :=
  { lo := c.index, hi := c.index, area := 1, peak := (residual c).toNat, sum := (residual c).toNat, inMark := false }

/-- R62: a dark column joins the current run. -/
def joinRun (r : Run) (c : Column) : Run :=
  { r with
    hi := c.index, area := r.area + 1, peak := max r.peak (residual c).toNat, sum := sat32 (r.sum + (residual c).toNat) }

/-- R62: dark columns joined into runs, left to right, across at most BR columns; `r` is the run in progress. -/
def runsFrom (br : Nat) (r : Run) : List Column → List Run
  | [] => [r]
  | c :: cs => if c.index - r.hi - 1 ≤ br then runsFrom br (joinRun r c) cs else r :: runsFrom br (beginRun c) cs

/-- R62: the runs of a line's dark columns. -/
def runsOfDark (br : Nat) : List Column → List Run
  | [] => []
  | c :: cs => runsFrom br (beginRun c) cs

/-- R63: the runs that pass the width test. -/
def wideRuns (q : ChanParams) (rs : List Run) : List Run := rs.filter fun r => decide (q.rw ≤ r.hi - r.lo + 1)

/-- R64, R66: a band line. -/
def isBandLine (q : ChanParams) (dark unsat : Nat) : Bool :=
  !q.bandOff && decide (dark ≠ 0) && decide (q.bf * unsat ≤ dark * 256)

/-- R65: the kept runs that go to the track table. -/
def fedRuns (q : ChanParams) (band : Bool) (t : Nat) (kept : List Run) : List Run :=
  if band then (kept.filter fun r => decide (t + q.deepM ≤ r.peak)).map fun r => { r with inMark := true } else kept

/-- R67: the dark summary of a line's dark columns. -/
def darkSummary (ds : List Column) : DarkSummary :=
  { lo := ((ds.head?).map Column.index).getD 0, hi := ((ds.getLast?).map Column.index).getD 0
    peak := (ds.map fun c => (residual c).toNat).foldl max 0, dark := ds.length }

/-- The verdicts an analysis can give (R47). -/
inductive FinalVerdict where
  | seed
  | warmup
  | analysed
  | obscured
  deriving DecidableEq, Repr

/-- What an analysis reports at its completion (R48, R68). -/
structure LineResult where
  verdict : FinalVerdict
  background : Store (Nat × Nat)
  flags : LineFlags
  fed : List Run
  dark : Nat
  threshold : Nat
  /-- The dark summary of a band line. -/
  band : Option DarkSummary
  deriving DecidableEq, Repr

/-- A result without runs, flags or figures. -/
def plainResult (v : FinalVerdict) (bg : Store (Nat × Nat)) : LineResult :=
  { verdict := v, background := bg, flags := LineFlags.none, fed := [], dark := 0, threshold := 0, band := none }

/-- R49: a seed line. -/
def analyseSeed (w : Nat) (q : ChanParams) (pix : Nat → Nat) (bg : Store (Nat × Nat)) : LineResult :=
  plainResult .seed (updatedBackground w q pix bg seedPair)

/-- R50, R53: a warm-up line. -/
def analyseWarmup (w : Nat) (q : ChanParams) (pix : Nat → Nat) (bg : Store (Nat × Nat)) : LineResult :=
  if isObscured q (interior w q pix bg) then plainResult .obscured bg
  else plainResult .warmup (updatedBackground w q pix bg (warmupPair q))

/-- Stages 4 to 8 of an ordinary line not obscured, with the noise estimate M. -/
def analyseStages (w : Nat) (q : ChanParams) (pix : Nat → Nat) (bg : Store (Nat × Nat)) (cs : List Column) (m : Nat) :
    LineResult :=
  let t := threshold q m
  let ds := cs.filter (isDark q t)
  let wide := wideRuns q (runsOfDark q.br ds)
  let band := isBandLine q ds.length (unsaturated q cs).length
  let fed := fedRuns q band t (wide.take 64)
  { verdict := .analysed
    background := updatedBackground w q pix bg (ordinaryPair q t)
    flags :=
      { band := band, deep := band && !fed.isEmpty, clutter := decide (64 < wide.length)
        stuck := cs.any (isForced q t), clampT := clampedThreshold q m }
    fed := fed, dark := ds.length, threshold := t
    band := if band then some (darkSummary ds) else none }

/-- R52 to R68: an ordinary line. -/
def analyseOrdinary (w : Nat) (q : ChanParams) (pix : Nat → Nat) (bg : Store (Nat × Nat)) : LineResult :=
  if isObscured q (interior w q pix bg) then plainResult .obscured bg
  else analyseStages w q pix bg (interior w q pix bg) (noise q (interior w q pix bg))

/-- R47: the analysis of a line by its role. -/
def analyse (role : Role) (w : Nat) (q : ChanParams) (pix : Nat → Nat) (bg : Store (Nat × Nat)) : LineResult :=
  match role with
  | .seed => analyseSeed w q pix bg
  | .warmup => analyseWarmup w q pix bg
  | .ordinary => analyseOrdinary w q pix bg

/-- R19, R68: the verdict word of a completion. -/
def resultWord (r : LineResult) (openTracks : Nat) : Word64 :=
  match r.verdict with
  | .seed => plainWord .seed
  | .warmup => plainWord .warmup
  | .obscured => plainWord .obscured
  | .analysed => analysedWord r.flags r.fed.length openTracks r.dark r.threshold

end Sys2Proof.Machine
end

