-- ==== Sys2Proof/Machine/ChannelUnit.lean ====
section
/-! DEFINITION. The channel unit: lines at the head of the queue, retirement, billets, teardown (R16, R17, R24 to R42). -/

namespace Sys2Proof.Machine

/-! ## Parameters -/

/-- R179: the channel takes its waiting set whole and recomputes its effective pitch (R85). -/
def switchParams (c : Chan) (s : State) : State :=
  match (s.chan c).waiting with
  | some p => recomputePitch c (modChan c (fun ch => { ch with params := p, waiting := none }) s)
  | none => s

/-- R179: an INSPECTING channel with a set waiting switches. -/
def switchInspecting (c : Chan) (s : State) : State :=
  match (s.chan c).record.state with
  | .inspecting => switchParams c s
  | .off => s
  | .waiting => s
  | .stalled => s
  | .passOnly => s

/-! ## The end of a billet (R30, R32, R42) -/

/-- R42: the BILLET record as produced now. -/
def billetRecord (c : Chan) (ending : BilletEnd) (s : State) : BilletRecord :=
  let ch := s.chan c
  { chan := c, ending := ending, billet := ch.record.billet
    length := position ch.record.lastAnalysed ch.record.headCount ch.params.strand.scale
    tallies := ch.record.tallies, defects := sat16 ch.record.serial.toNat, effPitch := ch.band.effPitch
    closeTime := s.ms }

/-- The closures of an ending: the tracks in ascending ID, then the episode (R30, R34). -/
def closeAll (c : Chan) (cause : Cause) (s : State) : State :=
  let t := closeTracks c cause s
  closeEpisode c (t.chan c).params cause t

/-- R30, R42: the closures of an ending, then the BILLET record. -/
def endBillet (c : Chan) (cause : Cause) (ending : BilletEnd) (s : State) : State :=
  let t := closeAll c cause s
  produce (.billet (billetRecord c ending t)) t

/-- Both timers stopped, no deferred abandon, and the state set. -/
def settleRecord (st : ChanState) (r : ChanRecord) : ChanRecord :=
  { r with state := st, stall := none, abandon := none, abandonDue := false }

/-- R30: the billet tail. -/
def billetTail (c : Chan) (s : State) : State :=
  let t := endBillet c .tail .tail (modRecord c (settleRecord .waiting) s)
  if t.ring.flushOnTail then requestFlush t else t

/-- R32: the billet is given up. That ABANDONED is latched after the closures and the BILLET record, and so after the conditions
they set, is the model's choice (log 42): R32 lists it without a place in the order. -/
def abandonBillet (c : Chan) (s : State) : State :=
  latchChan c .abandoned (endBillet c .abandoned .abandoned (modRecord c (settleRecord .waiting) s))

/-! ## The billet head (R27) -/

/-- R27: the next billet number, 0 skipped. -/
def nextBillet (n : Nat) : Nat := if n < 65535 then n + 1 else 1

/-- R31: a stall timer started now with the channel's STALL_MS. -/
def freshStall (now : Word32) (p : ChanParams) : MsTimer := { start := now, length := 10 * p.stallTens }

/-- R27: the record at a billet head with encoder count `count`. -/
def headRecord (now : Word32) (p : ChanParams) (count : Word32) (r : ChanRecord) : ChanRecord :=
  { r with
    state := .inspecting, billet := nextBillet r.billet, headCount := count, lastAnalysed := count, serial := 0
    tallies := Tallies.zero, warmupLeft := p.wu, stall := some (freshStall now p) }

/-- R27: the line of entry `e` is the billet head. -/
def billetHead (c : Chan) (e : Fin 2) (s : State) : State :=
  modChan c
    (fun ch =>
      let en := entryOf ch.capture e
      { ch with
        record := headRecord s.ms ch.params.chan (lineCount en) ch.record
        band := { ch.band with prevCentre := none }
        capture := setEntry ch.capture e { en with isHead := true } })
    s

/-! ## The unseen run (R14, R16, R17) -/

/-- R17: the channel goes blind. -/
def goBlind (c : Chan) (s : State) : State :=
  modCapture c (fun k => { k with unseenRun := 0 }) (blindEpisode c (closeTracks c .blind s))

/-- R17: the BLIND test. -/
def blindTest (c : Chan) (s : State) : State :=
  if billetOpen s c = true ∧ (s.chan c).params.chan.maxSkip < (s.chan c).capture.unseenRun then goBlind c s else s

/-- R16: `n` unseen or missing lines added to the unseen run, the unseen counter and, while a billet is open, its tally. -/
def addUnseen (c : Chan) (n : Nat) (s : State) : State :=
  let t := modCounters c (fun k => { k with unseen := sat16 (k.unseen + n) })
    (modCapture c (fun k => { k with unseenRun := sat16 (k.unseenRun + n) }) s)
  if billetOpen s c then modTallies c (fun y => { y with unseen := sat16 (y.unseen + n) }) t else t

/-- R14: the contribution of a line without an entry of its own. -/
def placeUnseen (c : Chan) (s : State) : State :=
  match (s.chan c).capture.queue.getLast? with
  | some e =>
    modCapture c
      (fun k =>
        let en := entryOf k e
        setEntry k e { en with unseenAfter := sat16 (en.unseenAfter + 1) })
      s
  | none => blindTest c (addUnseen c 1 s)

/-- How a line acts on the unseen run at its retirement, R16. -/
inductive Seen where
  /-- SEED, WARMUP, ANALYSED: the run is set to 0 and the gap added. -/
  | examined
  /-- OBSCURED, MALFORMED, LAMP: the gap and 1 are added. -/
  | unseen
  /-- HELD, REVERSE, NO_BILLET: the gap is added. -/
  | passed
  deriving DecidableEq, Repr

/-- R16: the effect of a class not to be analysed. -/
def classSeen : LineClass → Seen
  | .malformed => .unseen
  | .lamp => .unseen
  | .noBillet => .passed
  | .held => .passed
  | .reverse => .passed
  | .toAnalyse => .passed

/-- R16: the effect of a final verdict. -/
def verdictSeen : FinalVerdict → Seen
  | .seed => .examined
  | .warmup => .examined
  | .analysed => .examined
  | .obscured => .unseen

/-- R16: what a line adds to the unseen run: its own effect, then its unseen-after. -/
def contribution (k : Seen) (en : Entry) : Nat :=
  match k with
  | .examined => en.gap + en.unseenAfter
  | .unseen => en.gap + 1 + en.unseenAfter
  | .passed => en.gap + en.unseenAfter

/-- R16: an examined line first sets the run to 0. -/
def clearRun (c : Chan) (k : Seen) (s : State) : State :=
  match k with
  | .examined => modCapture c (fun x => { x with unseenRun := 0 }) s
  | .unseen => s
  | .passed => s

/-- R16: the head entry is retired: its contribution, the BLIND test, and it becomes FREE. -/
def retire (c : Chan) (e : Fin 2) (k : Seen) (s : State) : State :=
  modCapture c (fun x => { setEntry x e Entry.empty with queue := x.queue.drop 1 })
    (blindTest c (addUnseen c (contribution k (entryOf (s.chan c).capture e)) (clearRun c k s)))

/-! ## Lines at the head of the queue (R16, R26) -/

/-- R26: the effect of a line handed at the head of the queue; a line not to be analysed first makes an INSPECTING
channel switch (R179; log 19). -/
def actOnHead (c : Chan) (e : Fin 2) (k : LineClass) (s : State) : State :=
  match k with
  | .toAnalyse => if (s.chan c).record.state = .waiting then billetHead c e s else s
  | .noBillet => if billetOpen s c then billetTail c (switchInspecting c s) else s
  | .malformed => switchInspecting c s
  | .lamp => switchInspecting c s
  | .held => switchInspecting c s
  | .reverse => switchInspecting c s

/-- R16: the head of the queue is handed to the channel unit; a line not to be analysed is retired at once and the next
one handed, until a line to be analysed stands at the head or the queue is empty. A queue holds at most two. -/
def serveHead (c : Chan) : Nat → State → State
  | 0, s => s
  | n + 1, s =>
    match (s.chan c).capture.queue.head? with
    | none => s
    | some e =>
      match (entryOf (s.chan c).capture e).cls with
      | none => s
      | some .toAnalyse => actOnHead c e .toAnalyse s
      | some k => serveHead c n (retire c e (classSeen k) (actOnHead c e k s))

/-! ## Commands at the channel (R33 to R36) -/

/-- R33: the command suits the channel's state. -/
def suits (k : ChanCommand) (st : ChanState) : Bool :=
  match k with
  | .start => decide (st = .off)
  | .startReplay => decide (st = .off)
  | .stop => true
  | .isolate => true
  | .restart => decide (st ≠ .off)

/-- R188: the channel's counters set to 0. -/
def clearCounters (c : Chan) (s : State) : State := modCounters c (fun _ => ChanCounters.zero) s

/-- R33: START or START_REPLAY taken in OFF. -/
def startChannel (c : Chan) (m : Mode) (s : State) : State :=
  clearPitchRing c (clearCounters c (modRecord c (fun r => { r with state := .waiting, mode := m }) s))

/-- R34: the closures and the BILLET record of a teardown with records. -/
def teardownRecords (c : Chan) (s : State) : State :=
  if billetOpen s c then endBillet c .stopped .stopped s else closeAll c .stopped s

/-- R34: the teardown with records, into state `st`. -/
def teardown (c : Chan) (st : ChanState) (s : State) : State :=
  modRecord c (fun r => { settleRecord st r with pendingCmd := none })
    (removeMarks c (dropCapture c (teardownRecords c s)))

/-- R33, R35: STOP taken by a channel. -/
def stopChannel (c : Chan) (s : State) : State :=
  match (s.chan c).record.state with
  | .off => s
  | .passOnly => modRecord c (fun r => { r with state := .off }) s
  | .waiting => teardown c .off s
  | .inspecting => teardown c .off s
  | .stalled => teardown c .off s

/-- R33, R35: ISOLATE taken by a channel. -/
def isolateChannel (c : Chan) (s : State) : State :=
  match (s.chan c).record.state with
  | .passOnly => s
  | .off => teardown c .passOnly s
  | .waiting => teardown c .passOnly s
  | .inspecting => teardown c .passOnly s
  | .stalled => teardown c .passOnly s

/-- R36: the record after RESTART. -/
def restartRecord (r : ChanRecord) : ChanRecord :=
  { settleRecord .waiting r with pendingCmd := none, warmupLeft := 0, serial := 0, tallies := Tallies.zero }

/-- R36, R76, R107: the channel's tracks, episode, previous centre and background dropped. -/
def dropWork (ch : Channel) : Channel :=
  { ch with
    tracks := [], background := [], band := { ch.band with episode := Episode.none, prevCentre := none } }

/-- R36: RESTART taken by a channel. -/
def restartChannel (c : Chan) (s : State) : State :=
  modRecord c restartRecord
    (clearCounters c (removeMarks c (dropCapture c (clearPitchRing c (modChan c dropWork s)))))

/-- R33: the effect of a command that suits the channel's state. -/
def takeEffect (c : Chan) (k : ChanCommand) (s : State) : State :=
  match k with
  | .start => startChannel c .live s
  | .startReplay => startChannel c .replay s
  | .stop => stopChannel c s
  | .isolate => isolateChannel c s
  | .restart => restartChannel c s

/-- R33, R180: the channel reports that the command did not suit its state. -/
def markPartial (s : State) : State :=
  match s.setup.command with
  | .inProgress r => { s with setup := { s.setup with command := .inProgress { r with isPartial := true } } }
  | .ready => s

/-- R33: the channel takes a command, which is then no longer pending. -/
def takeCommand (c : Chan) (k : ChanCommand) (s : State) : State :=
  let t := modRecord c (fun r => { r with pendingCmd := none }) s
  if suits k (s.chan c).record.state then takeEffect c k t else markPartial t

/-- R31: a completion of a line is reported: an INSPECTING channel's stall timer restarts, a STALLED channel returns to
INSPECTING. -/
def reportCompletion (c : Chan) (s : State) : State :=
  match (s.chan c).record.state with
  | .inspecting => modChan c (fun ch => { ch with record := { ch.record with stall := some (freshStall s.ms ch.params.chan) } }) s
  | .stalled =>
    modChan c
      (fun ch =>
        { ch with
          record := { ch.record with
            state := .inspecting, abandon := none, stall := some (freshStall s.ms ch.params.chan) } })
      s
  | .off => s
  | .waiting => s
  | .passOnly => s

end Sys2Proof.Machine
end

