-- ==== Sys2Proof/Machine/SetupUnit.lean ====
section
/-! DEFINITION. Status blocks, the commands and their ends, APPLY, RESET_PART (R173 to R183, R189). -/

namespace Sys2Proof.Machine

/-! ## Status blocks and command ends -/

/-- R189: channel `c`'s status block offered. -/
def offerChannelBlock (c : Chan) (s : State) : State :=
  offerStatus (statusBlockAt c.val) (channelBlock (s.chan c) (s.status.counters.get c)) s

/-- R189: the 17 status blocks offered, channel 0 to 15 and then the part-wide block. -/
def offerBlocks (s : State) : State :=
  let t := allChans.foldl (fun u c => offerChannelBlock c u) s
  offerStatus (statusBlockAt 16) (partBlock t) t

/-- The command state replaced. -/
def setCommand (k : CommandState) (s : State) : State := { s with setup := { s.setup with command := k } }

/-- R174: a command's end: its status word, READY, and every status block. -/
def endCommand (r : Running) (res : CommandResult) (check : Nat) (s : State) : State :=
  offerBlocks
    (setCommand .ready
      (offerWord commandStatusAt
        (commandStatusWord r.tag r.code res r.isPartial (decide (1 ≤ r.clamped)) r.geometryHeld check r.clamped) s))

/-- A command just taken. -/
def newRunning (tag code : Byte) : Running :=
  { tag := tag, code := code, isPartial := false, clamped := 0, geometryHeld := false }

/-- R174: a refusal of a taken command. -/
def refuse (tag code : Byte) (res : CommandResult) (check : Nat) (s : State) : State :=
  endCommand (newRunning tag code) res check s

/-- Some channel has a set waiting (R179). -/
def anyWaiting (s : State) : Bool := allChans.any fun c => (s.chan c).waiting.isSome

/-- Some channel has a command pending (R180). -/
def anyPending (s : State) : Bool := allChans.any fun c => (s.chan c).record.pendingCmd.isSome

/-- R179, R180: the command in progress has nothing left to wait for. -/
def commandDone (r : Running) (s : State) : Bool :=
  match r.code.toNat with
  | 1 => !anyWaiting s
  | 2 => !anyPending s
  | 3 => !anyPending s
  | 4 => !anyPending s
  | 5 => !anyPending s
  | 6 => !anyPending s
  | _ => false

/-- R179, R180: the end of an APPLY or a channel command, taken at the end of the act in which the last channel has
switched or taken it (log 20). -/
def settleCommand (s : State) : State :=
  match s.setup.command with
  | .inProgress r => if commandDone r s then endCommand r .done 0 s else s
  | .ready => s

/-! ## APPLY (R175 to R179) -/

/-- R189: the snapshot period of a code, in ms. -/
def snapshotPeriod (code : Nat) : Nat :=
  match code with
  | 1 => 10
  | 2 => 20
  | 3 => 50
  | 4 => 100
  | 5 => 200
  | 6 => 500
  | 7 => 1000
  | _ => 0

/-- R189: the snapshot timer as restarted at `now`; stopped with code 0. -/
def snapshotTimer (now : Word32) (code : Nat) : Option MsTimer :=
  if snapshotPeriod code = 0 then none else some { start := now, length := snapshotPeriod code }

/-- R128: the slot table with slot 0 FILLING with 0 places and the other slots FREE. -/
def freshSlots (n : Nat) : List Slot :=
  { state := .filling, places := 0 } :: List.replicate (n - 1) { state := .free, places := 0 }

/-- R178: geometry is taken, and the ring index word offered, before the switch of R179 and what it offers: the model's choice
(log 44). -/
def takeGeometry (g : Geometry) (s : State) : State :=
  offerWord ringIndexAt (ringIndexWord 0)
    { s with
      setup := { s.setup with geometry := some g }
      ring := { s.ring with slots := freshSlots g.s, fill := .filling 0, index := 0 } }

/-- R179: channel `c`'s new set, at once or waiting by its state. -/
def giveSet (w : Nat) (s : State) (c : Chan) : State :=
  let p := clampedSet w s.setup.staged c
  match (s.chan c).record.state with
  | .inspecting => modChan c (fun ch => { ch with waiting := some p }) s
  | .off => recomputePitch c (modChan c (fun ch => { ch with params := p }) s)
  | .waiting => recomputePitch c (modChan c (fun ch => { ch with params := p }) s)
  | .stalled => recomputePitch c (modChan c (fun ch => { ch with params := p }) s)
  | .passOnly => recomputePitch c (modChan c (fun ch => { ch with params := p }) s)

/-- R146, R179: a strand's new settings given to its mark scheduler. -/
def giveStrand (s : State) (k : Strand) : State :=
  modStrand k (applyStrand (clampStrand (stagedStrand s.setup.staged (strandSectionAt k.val)))) s

/-- R179: BATCH_AGE_MS and FLUSH_ON_TAIL given to the ring writer. -/
def giveRing (p : PartSection) (s : State) : State :=
  modRing (fun r => { r with batchAge := p.batchAge, flushOnTail := p.flushOnTail }) s

/-- R179, R187, R189: the attention mask and the snapshot period code given to the status unit. -/
def giveStatus (p : PartSection) (s : State) : State :=
  refreshAttention
    (modStatus
      (fun st =>
        { st with
          maskChan := p.maskChan, maskPart := p.maskPart, code := p.code, snapshot := snapshotTimer s.ms p.code })
      s)

/-- R179: the switch of an APPLY, with W in use `w`. -/
def switchPart (w : Nat) (s : State) : State :=
  let p := clampPart (stagedPart s.setup.staged)
  allChans.foldl (giveSet w) (giveStatus p (giveRing p (allStrands.foldl giveStrand s)))

/-- R177, R179: an APPLY past its checks. -/
def applyWith (tag code : Byte) (w : Nat) (differs : Bool) (s : State) : State :=
  settleCommand
    (switchPart w
      (setCommand
        (.inProgress
          { tag := tag, code := code, isPartial := false, clamped := sat16 (clampedCount w s.setup.staged)
            geometryHeld := differs })
        s))

/-- APPLY (R175, R178). At the one that takes geometry the ring index word is offered before the attention summary word, where
the new mask changes the summary (R187): the model's choice, the rules give no order of the two (log 44). -/
def runApply (tag code : Byte) (s : State) : State :=
  let g := stagedGeometry s.setup.staged
  match s.setup.geometry with
  | some h => applyWith tag code h.w (decide (g ≠ h)) s
  | none =>
    match failedCheck s.setup.strap g with
    | some i => refuse tag code .refusedInvalid i s
    | none => applyWith tag code g.w false (takeGeometry g s)

/-! ## Channel commands (R180) and FLUSH (R181) -/

/-- R33, R180: the command reaches a channel: taken at once, or pending while an analysis of the channel is in flight. -/
def deliverTo (k : ChanCommand) (s : State) (c : Chan) : State :=
  if inFlight s c then modRecord c (fun r => { r with pendingCmd := some k }) s else takeCommand c k s

/-- R180: a channel command is delivered to every channel of its mask. -/
def runChannels (tag code : Byte) (mask : BitVec 16) (k : ChanCommand) (s : State) : State :=
  settleCommand
    ((deliveryOrder s.freeCount mask).foldl (deliverTo k)
      { setCommand (.inProgress (newRunning tag code)) s with freeCount := s.freeCount + 1 })

/-- R181: one flush request, and DONE. -/
def runFlush (tag code : Byte) (s : State) : State := endCommand (newRunning tag code) .done 0 (requestFlush s)

/-! ## RESET_PART (R182) -/

/-- A channel's RESET_PART values: its active parameters are kept. -/
def resetChannel (ch : Channel) : Channel :=
  { Channel.initial with
    params := ch.params, band := Band.empty (effectivePitch ch.params.chan []) }

/-- R184: an owner's latched set at the second part: empty, but for RING_BLOCKED where the ring stays blocked. -/
def resetLatched (s : State) : Owner → BitVec 16
  | .chan _ => 0
  | .part => if ringBlocked s.ring then condSet (partCondBit .ringBlocked) else 0

/-- An owner's set given its RESET_PART value, its word offered if that is a change (R185). -/
def resetSet (s : State) (o : Owner) : State :=
  if resetLatched s o = (condWordOf s.status o).latched then s
  else
    offerWord (conditionAt (ownerIndex o)) (conditionWord (resetLatched s o))
      (modStatus (fun st => setCondWord o { condWordOf st o with latched := resetLatched s o } st) s)

/-- R184, R187, R188: the status unit at the second part. The changed condition words are offered by ascending owner, then the
attention summary word: the model's choice (log 40). -/
def resetStatus (s : State) : State :=
  refreshAttention
    (allOwners.foldl resetSet
      (modStatus
        (fun st => { st with counters := Bank16.all ChanCounters.zero, partCounters := PartCounters.zero }) s))

/-- R182: every block but the ring writer takes its RESET_PART values. -/
def resetBlocks (s : State) : State :=
  { s with
    chans := s.chans.map resetChannel, unrouted := none, engine := Engine.initial
    strands := s.strands.map resetPartStrand, path := { s.path with lastSide := .system } }

/-- R182: the second part of RESET_PART, in one act; the ring writer stops as R143 states. -/
def resetSecondPart (s : State) : State :=
  modRing (fun r => { r with resetWait := true, age := none })
    (resetStatus (resetBlocks (allChans.foldl (fun t c => dropCapture c t) s)))

/-- R182: RESET_PART is taken: the second part at once where no analysis is in flight, at the completion otherwise. -/
def runResetPart (tag code : Byte) (s : State) : State :=
  let t := setCommand (.inProgress (newRunning tag code)) s
  match s.engine.analysis with
  | none => resetSecondPart t
  | some _ => t

/-- RESET_PART waits in its first part for the analysis in flight (R182). -/
def resetPartWaits (s : State) : Bool :=
  match s.setup.command with
  | .inProgress r => decide (r.code.toNat = 8) && !s.ring.resetWait
  | .ready => false

/-! ## Starting a command (R173, R174) -/

/-- R174: the tests for a command that takes a mask, then its run. -/
def runMasked (tag code : Byte) (mask : BitVec 16) (k : ChanCommand) (s : State) : State :=
  if mask = 0 then refuse tag code .refusedInvalid 0 s else runChannels tag code mask k s

/-- R174: a command past the first two tests. -/
def runKnown (tag code : Byte) (mask : BitVec 16) (s : State) : State :=
  match code.toNat with
  | 1 => runApply tag code s
  | 2 => runMasked tag code mask .start s
  | 3 => runMasked tag code mask .startReplay s
  | 4 => runMasked tag code mask .stop s
  | 5 => runMasked tag code mask .isolate s
  | 6 => runMasked tag code mask .restart s
  | 7 => runFlush tag code s
  | 8 => runResetPart tag code s
  | _ => s

/-- R174: a taken command is tested and runs. -/
def runCommand (tag code : Byte) (mask : BitVec 16) (s : State) : State :=
  if code.toNat = 0 ∨ 8 < code.toNat then refuse tag code .refusedUnknown 0 s
  else if code.toNat ≠ 1 ∧ s.setup.geometry = none then refuse tag code .refusedNoGeometry 0 s
  else runKnown tag code mask s

/-- R173: a command that starts while another is in progress: its refusal is written and nothing else changes. -/
def refuseBusy (tag code : Byte) (s : State) : State :=
  offerWord commandStatusAt (commandStatusWord tag code .refusedBusy false false false 0 0) s

/-- R173: the command of the staged command word starts. -/
def startCommand (s : State) : State :=
  let m := s.setup.staged
  match s.setup.command with
  | .ready => runCommand (stagedTag m) (stagedCode m) (stagedMask m) s
  | .inProgress _ => refuseBusy (stagedTag m) (stagedCode m) s

/-- SNAPSHOT_EXPIRY (R189): the 17 blocks are offered and the timer restarts with the same period. -/
def execSnapshotExpiry (s : State) : Host.Outcome State Fault Refusal :=
  match s.status.snapshot with
  | some t =>
    if timerDue s.ms t then
      .next (offerBlocks (modStatus (fun st => { st with snapshot := some { t with start := s.ms } }) s))
    else .next s
  | none => .next s

end Sys2Proof.Machine
end

