-- ==== Sys2Proof/Machine/LineCapture.lean ====
section
/-! DEFINITION. Line capture: beats, lines, their checks and classes (R3 to R15, R18, R22, R23). -/

namespace Sys2Proof.Machine

/-- What line capture has made of a write so far: the state, the trailer beats to be rewritten, whether a line to be
analysed was completed by it, and the channels whose windows it wrote stray beats of (R5, R11, R159). -/
structure Acceptance where
  st : State
  rewrites : List (Nat × Word64)
  isHeld : Bool
  strays : List Chan

/-! ## Starting, merging, abandoning, skipping (R6 to R10) -/

/-- A beat's flag set in a beat map. -/
def setFlag (i : Nat) : List Nat → List Nat
  | [] => [i]
  | x :: xs => if i < x then i :: x :: xs else if i = x then x :: xs else x :: setFlag i xs

/-- R7: beat `i` of the line merged into the entry. -/
def mergeInto (i : Nat) (b : Beat) (e : Entry) : Entry :=
  { e with
    buffer := mergeBeat (fun _ => true) (8 * i) b.data b.enables 8 e.buffer, beatMap := setFlag i e.beatMap }

/-- The entry of a channel that is ASSEMBLING. -/
def assemblingEntry (k : Capture) : Option (Fin 2) :=
  if k.e0.state = .assembling then some 0 else if k.e1.state = .assembling then some 1 else none

/-- R6: entry 0 if it is FREE, otherwise entry 1 if it is FREE. -/
def claimEntry (k : Capture) : Option (Fin 2) :=
  if k.e0.state = .free then some 0 else if k.e1.state = .free then some 1 else none

/-- R7: a header or pixel beat merged into the line in progress. -/
def mergeLine (c : Chan) (i : Nat) (b : Beat) (s : State) : State :=
  match assemblingEntry (s.chan c).capture with
  | some e => modCapture c (fun k => setEntry k e (mergeInto i b (entryOf k e))) s
  | none => s

/-- The unplaced count increased by 1 (R8, R10, R13). -/
def bumpUnplaced (c : Chan) (s : State) : State :=
  modCapture c (fun k => { k with unplaced := sat16 (k.unplaced + 1) }) s

/-- A MALFORMED line counted and its condition set (R8, R12). -/
def countMalformed (c : Chan) (s : State) : State :=
  latchChan c .malformed (modCounters c (fun k => { k with malformed := sat16 (k.malformed + 1) }) s)

/-- R8: the line in progress is abandoned. -/
def abandonLine (c : Chan) (s : State) : State :=
  let freed :=
    modCapture c
      (fun k =>
        match assemblingEntry k with
        | some e => { setEntry k e Entry.empty with asm := .idle }
        | none => { k with asm := .idle })
      s
  placeUnseen c (bumpUnplaced c (countMalformed c freed))

/-- R10: the line of slot `j` finds no FREE entry and is skipped. -/
def skipLine (c : Chan) (j : Nat) (s : State) : State :=
  placeUnseen c
    (bumpUnplaced c
      (latchChan c .skippedBusy
        (modCounters c (fun k => { k with skippedBusy := sat16 (k.skippedBusy + 1) })
          (modCapture c (fun k => { k with asm := .skipping j }) s))))

/-- R6: a new line starts at slot `j` with header beat 0. -/
def startLine (c : Chan) (j : Nat) (b : Beat) (s : State) : State :=
  match claimEntry (s.chan c).capture with
  | some e =>
    modCapture c
      (fun k =>
        { setEntry k e (mergeInto 0 b { Entry.empty with state := .assembling, slot := j }) with asm := .assembling j })
      s
  | none => skipLine c j s

/-- R6: a written header beat 0 of slot `j` of the watched window. -/
def headerBeat (c : Chan) (j : Nat) (b : Beat) (s : State) : State :=
  match (s.chan c).capture.asm with
  | .idle => startLine c j b s
  | .skipping _ => startLine c j b s
  | .assembling k => if k = j then mergeLine c 0 b s else startLine c j b (abandonLine c s)

/-! ## Completion (R9, R12, R13, R15, R18) -/

/-- R12: the sequence test fails. -/
def sequenceFails (last : Option Word32) (e : Entry) : Bool :=
  match last with
  | some q => decide (distance (lineSeq e) q = 0) || behind (lineSeq e) q
  | none => false

/-- R12: a header beat's flag is clear. -/
def headerMissing (e : Entry) : Bool := (List.range 4).any fun i => !e.beatMap.contains i

/-- R12: HOT = 1 and a pixel beat's flag is clear. -/
def pixelMissing (w : Nat) (e : Entry) : Bool := lineHot e && (List.range (w / 8)).any fun i => !e.beatMap.contains (4 + i)

/-- R12: the causes but for the sequence. -/
def otherwiseMalformed (w : Nat) (c : Chan) (e : Entry) : Bool :=
  headerMissing e || pixelMissing w e || decide (linePixels e ≠ w) || decide (lineChan e ≠ some c.val)

/-- R12: the line is MALFORMED. -/
def isMalformed (w : Nat) (c : Chan) (last : Option Word32) (e : Entry) : Bool :=
  sequenceFails last e || otherwiseMalformed w c e

/-- R13: the gap of a well-placed line. -/
def lineGap (k : Capture) (e : Entry) : Nat :=
  match k.lastSeq with
  | some q => distance (lineSeq e) q - 1 - k.unplaced
  | none => 0

/-- R13: the line placed in the sequence; its gap is kept in the entry with the class. -/
def placeLine (w : Nat) (c : Chan) (e : Entry) (k : Capture) : Capture :=
  if sequenceFails k.lastSeq e then k
  else if otherwiseMalformed w c e then { k with unplaced := sat16 (k.unplaced + 1) }
  else { k with lastSeq := some (lineSeq e), unplaced := 0 }

/-- R13: the gap recorded for a completed line; a MALFORMED line's is 0. -/
def recordedGap (w : Nat) (c : Chan) (k : Capture) (e : Entry) : Nat :=
  if isMalformed w c k.lastSeq e then 0 else lineGap k e

/-- R15: row 5. -/
def isReverse (s : State) (c : Chan) (e : Entry) : Bool :=
  billetOpen s c && behind (lineCount e) (s.chan c).record.lastAnalysed

/-- R15: the verdict class of a completed line, the first row that applies. -/
def classOf (s : State) (c : Chan) (e : Entry) : LineClass :=
  if isMalformed (heldW s) c (s.chan c).capture.lastSeq e then .malformed
  else if !lineHot e then .noBillet
  else if lineLamp e then .lamp
  else if holdAsserted s (strandOf c) then .held
  else if isReverse s c e then .reverse
  else .toAnalyse

/-- R12, R13: the counter and the conditions that a completion sets. -/
def completionConditions (c : Chan) (k : LineClass) (gap : Nat) (s : State) : State :=
  let t := if k = .malformed then countMalformed c s else s
  if 1 ≤ gap then latchChan c .lineLoss t else t

/-- R9, R147: a line of a LIVE channel that is not MALFORMED counts for its strand. -/
def handCount (c : Chan) (k : LineClass) (count : Word32) (s : State) : State :=
  if k ≠ .malformed ∧ (s.chan c).record.mode = .live then modStrand (strandOf c) (countLine s.ms count) s else s

/-- R18: the trailer joins the channel's held-trailer list and its hold timer starts. -/
def holdTrailer (c : Chan) (e : Fin 2) (id i : Nat) (s : State) : State :=
  modChan c
    (fun ch =>
      { ch with
        held := ch.held ++
          [{ entry := e, txn := id, beat := i, start := s.us, length := 10 * ch.params.chan.holdTens }] })
    s

/-- R9, R16: the completed entry, QUEUED at the tail of the channel's queue with its class and gap. -/
def enqueueEntry (c : Chan) (e : Fin 2) (k : LineClass) (gap : Nat) (s : State) : State :=
  modCapture c
    (fun q =>
      { setEntry q e { entryOf q e with state := .queued, cls := some k, gap := gap } with
        queue := q.queue ++ [e], asm := .idle })
    s

/-- R16: onto an empty queue, the completed line becomes the head at once. -/
def serveIfAlone (c : Chan) (wasEmpty : Bool) (s : State) : State := if wasEmpty then serveHead c 3 s else s

/-- R9: the effects of a completion but for the trailer: report, checks, sequence, class, queue, counting. -/
def completeEffects (c : Chan) (e : Fin 2) (k : LineClass) (s : State) : State :=
  let en := entryOf (s.chan c).capture e
  let w := heldW s
  let gap := recordedGap w c (s.chan c).capture en
  handCount c k (lineCount en)
    (enqueueEntry c e k gap
      (completionConditions c k gap (modCapture c (placeLine w c en) (reportCompletion c s))))

/-- R9, R15: the trailer beat `i` of transaction `id` completes the line of entry `e`. -/
def completeLine (c : Chan) (e : Fin 2) (id i : Nat) (x : Acceptance) : Acceptance :=
  let k := classOf x.st c (entryOf (x.st.chan c).capture e)
  let wasEmpty := (x.st.chan c).capture.queue.isEmpty
  let t := completeEffects c e k x.st
  match classVerdict k with
  | some v => { x with st := serveIfAlone c wasEmpty t, rewrites := x.rewrites ++ [(i, plainWord v)] }
  | none => { x with st := serveIfAlone c wasEmpty (holdTrailer c e id i t), isHeld := true }

/-- R9, R10: a trailer beat of the slot that the channel is assembling or skipping. -/
def ownTrailer (c : Chan) (id i : Nat) (x : Acceptance) : Acceptance :=
  match (x.st.chan c).capture.asm with
  | .assembling _ =>
    match assemblingEntry (x.st.chan c).capture with
    | some e => completeLine c e id i x
    | none => x
  | .skipping _ =>
    { x with
      st := modCapture c (fun k => { k with asm := .idle }) x.st
      rewrites := x.rewrites ++ [(i, plainWord .skippedBusy)] }
  | .idle => x

/-- The slot that a channel is assembling or skipping. -/
def asmSlot (k : Capture) : Option Nat :=
  match k.asm with
  | .idle => none
  | .assembling j => some j
  | .skipping j => some j

/-- R7, R10: a header or pixel beat of the slot that the channel is assembling or skipping. -/
def ownBeat (c : Chan) (n : Nat) (b : Beat) (s : State) : State :=
  match (s.chan c).capture.asm with
  | .assembling _ => mergeLine c n b s
  | .skipping _ => s
  | .idle => s

/-- R11: a stray beat of the channel's window; a transaction counts once. -/
def noteStray (c : Chan) (x : Acceptance) : Acceptance :=
  if x.strays.contains c then x else { x with strays := x.strays ++ [c] }

/-- R5 to R11: beat `i` of a write falls in slot `j` of the line window that channel `c` watches. -/
def lineBeat (c : Chan) (j offset id i : Nat) (b : Beat) (x : Acceptance) : Acceptance :=
  match beatKind (heldW x.st) offset with
  | .padding => x
  | .trailer => if asmSlot (x.st.chan c).capture = some j then ownTrailer c id i x else noteStray c x
  | .content n =>
    if b.enables = 0 then x
    else if n = 0 then { x with st := headerBeat c j b x.st }
    else if asmSlot (x.st.chan c).capture = some j then { x with st := ownBeat c n b x.st }
    else noteStray c x

/-! ## Replay routing (R22, R23) -/

/-- A channel that watches the replay window: started in mode REPLAY (R3). -/
def replays (s : State) (c : Chan) : Bool := watches s c && decide ((s.chan c).record.mode = .replay)

/-- A channel that watches its line window: started in mode LIVE (R3). -/
def livesOn (s : State) (c : Chan) : Bool := watches s c && decide ((s.chan c).record.mode = .live)

/-- A byte of a beat as it stands in the write, a byte whose enable is clear reading as 0 (R22). -/
def writtenByte (b : Beat) (i : Nat) : Nat := if b.enables.getLsbD i then (byteOf b.data i).toNat else 0

/-- R22: the channel that a header beat 0 of the replay window is routed to. -/
def routedChan (s : State) (b : Beat) : Option Chan :=
  match headerChan (writtenByte b 4) (writtenByte b 5) with
  | some n => allChans.find? fun c => decide (c.val = n) && replays s c
  | none => none

/-- R22: another channel's line in progress at replay slot `j` is abandoned, another channel's skip there ends. -/
def endOther (j : Nat) (c : Chan) (s : State) (d : Chan) : State :=
  if d ≠ c ∧ replays s d then
    match (s.chan d).capture.asm with
    | .assembling k => if k = j then abandonLine d s else s
    | .skipping k => if k = j then modCapture d (fun q => { q with asm := .idle }) s else s
    | .idle => s
  else s

/-- The unrouted slot cleared where it is `j`. -/
def clearUnrouted (j : Nat) (s : State) : State := if s.unrouted = some j then { s with unrouted := none } else s

/-- R23: the channel that assembles or skips slot `j` of the replay window. -/
def replayOwner (s : State) (j : Nat) : Option Chan :=
  allChans.find? fun c => replays s c && decide (asmSlot (s.chan c).capture = some j)

/-- R23: header or pixel beat `n` of replay slot `j`, taken by the channel that assembles or skips the slot. -/
def replayContent (j n : Nat) (b : Beat) (s : State) : State :=
  match replayOwner s j with
  | some c => ownBeat c n b s
  | none => s

/-- R22, R23: a written header beat 0 of replay slot `j`. One that is not routed is still a later beat of the slot for the
channel that assembles it, and is merged there (log 46). -/
def replayHeader (j : Nat) (b : Beat) (s : State) : State :=
  match routedChan s b with
  | some c => headerBeat c j b (clearUnrouted j (allChans.foldl (endOther j c) s))
  | none => latchPart .strayReplay { replayContent j 0 b s with unrouted := some j }

/-- R22, R23: beat `i` of a write falls in slot `j` of the replay window. -/
def replayBeat (j offset id i : Nat) (b : Beat) (x : Acceptance) : Acceptance :=
  match beatKind (heldW x.st) offset with
  | .padding => x
  | .trailer =>
    match replayOwner x.st j with
    | some c => ownTrailer c id i x
    | none =>
      if x.st.unrouted = some j then
        { x with st := { x.st with unrouted := none }, rewrites := x.rewrites ++ [(i, plainWord .notRouted)] }
      else x
  | .content n =>
    if b.enables = 0 then x
    else { x with st := if n = 0 then replayHeader j b x.st else replayContent j n b x.st }

/-! ## The beats of a write (R5, R160) -/

/-- R160: one beat of a write, at address `a`, handed to line capture where its region is watched. -/
def takeBeat (id i a : Nat) (b : Beat) (x : Acceptance) : Acceptance :=
  match regionOf x.st a with
  | .line c j offset => if livesOn x.st c then lineBeat c j offset id i b x else x
  | .replay j offset => replayBeat j offset id i b x
  | .setup _ => x
  | .elsewhere => x

/-- R5: the beats of a write in ascending address order, each taken whole before the next. -/
def takeBeats (id a : Nat) : Nat → List Beat → Acceptance → Acceptance
  | _, [], x => x
  | i, b :: bs, x => takeBeats id a (i + 1) bs (takeBeat id i (a + 8 * i) b x)

/-- R11: a transaction with stray beats of a channel's window increases its MALFORMED counter by 1. -/
def countStray (s : State) (c : Chan) : State :=
  modCounters c (fun k => { k with malformed := sat16 (k.malformed + 1) }) s

/-- Line capture takes a write as transaction `id` (R5, R11). -/
def captureWrite (id a : Nat) (beats : List Beat) (s : State) : Acceptance :=
  let x := takeBeats id a 0 beats { st := s, rewrites := [], isHeld := false, strays := [] }
  { x with st := x.strays.foldl countStray x.st }

end Sys2Proof.Machine
end

