-- ==== Sys2Proof/Machine/RingWriter.lean ====
section
/-! DEFINITION. The ring writer (R128 to R144). -/

namespace Sys2Proof.Machine

/-- The held ring base (0 before geometry is held). -/
def heldRingBase (s : State) : Nat := (s.setup.geometry.map Geometry.ringBase).getD 0

/-- R129: the address of place `k` of slot `i`. -/
def placeAddr (s : State) (i k : Nat) : Nat := heldRingBase s + i * heldB s * 32 + k * 32

/-- R129: the address of slot `i`'s first beat. -/
def slotAddr (s : State) (i : Nat) : Nat := placeAddr s i 0

/-! ## Placing records (R134) -/

/-- R132: an entry of the record queue has become free; with a loss episode open its GAP record takes it. -/
def gapTakes (r : Ring) : Ring :=
  match r.loss with
  | some l => { r with queue := r.queue ++ [.gap l.count l.first l.last], loss := none }
  | none => r

/-- R134: what the placement of the head record into place `k` of slot `i` makes of the ring writer. -/
def placedRing (now : Word32) (b i k : Nat) (r : Ring) : Ring :=
  let g := gapTakes { r with queue := r.queue.drop 1 }
  { setSlot i { state := .filling, places := k + 1 } g with
    outstanding := g.outstanding + 1
    age :=
      if k + 1 = b then none
      else if k = 0 ∧ g.batchAge ≠ 0 then some { start := now, length := 10 * g.batchAge }
      else g.age }

/-- R134: the FILLING slot that can take a record now, if a record waits and the memory path admits it. -/
def placeableSlot (s : State) : Option Nat :=
  match s.ring.fill with
  | .filling i =>
    if placesOf s.ring i < heldB s ∧ s.ring.resetWait = false ∧ admitsRecord s.path = true then some i else none
  | .blocked _ => none
  | .none => none

/-- R134: the head record `r` is placed in slot `i`. -/
def placeRecord (i : Nat) (r : Record) (s : State) : State :=
  let k := placesOf s.ring i
  modRing (placedRing s.ms (heldB s) i k) (modPath (putRecordWrite (placeAddr s i k) (recordBytes r)) s)

/-- RECORD_PLACEMENT (R134): the head record takes the next place of the FILLING slot. -/
def execRecordPlacement (s : State) : Host.Outcome State Fault Refusal :=
  match placeableSlot s, s.ring.queue with
  | some i, r :: _ => .next (placeRecord i r s)
  | some _, [] => .next s
  | none, _ => .next s

/-! ## Flushing (R139 to R142) -/

/-- R140: FILLER records that await admission are offered, in ascending place order, while the queue admits them; `n` is
how many await. -/
def offerFillers (i : Nat) : Nat → State → State
  | 0, s => modRing (fun r => { r with fillers := 0 }) s
  | n + 1, s =>
    if admitsRecord s.path then
      offerFillers i n
        (modRing (fun r => { r with outstanding := r.outstanding + 1 })
          (modPath (putRecordWrite (placeAddr s i (heldB s - (n + 1))) (recordBytes .filler)) s))
    else modRing (fun r => { r with fillers := n + 1 }) s

/-- R140, R143: the FILLING slot's FILLER records not yet admitted are offered, unless RESET_PART awaits the ring writer. -/
def retryFillers (s : State) : State :=
  match s.ring.fill with
  | .filling i => if s.ring.resetWait then s else offerFillers i s.ring.fillers s
  | .blocked _ => s
  | .none => s

/-- R140: the slot to which a pending flush can be applied now. -/
def flushableSlot (s : State) : Option Nat :=
  match s.ring.fill with
  | .filling i =>
    if s.ring.flushPending = true ∧ s.ring.queue = [] ∧ 1 ≤ placesOf s.ring i ∧ placesOf s.ring i < heldB s ∧
        s.ring.resetWait = false then some i
    else none
  | .blocked _ => none
  | .none => none

/-- R140: a pending flush is applied to slot `i`: its remaining places are assigned to FILLER records. -/
def applyFlush (i : Nat) (s : State) : State :=
  let n := heldB s - placesOf s.ring i
  offerFillers i n
    (modRing
      (fun r => { setSlot i { state := .filling, places := heldB s } r with flushPending := false, age := none }) s)

/-- FLUSH_APPLY (R140). -/
def execFlushApply (s : State) : Host.Outcome State Fault Refusal :=
  match flushableSlot s with
  | some i => .next (applyFlush i s)
  | none => .next s

/-- R141: the ring that a batch age expiry finds. Where the B-th record can be placed now, its placement and the expiry have
come together, and the expiry taken first finds the slot full (log 36). -/
def ringAtExpiry (s : State) : Ring :=
  match placeableSlot s with
  | some i =>
    if s.ring.queue ≠ [] ∧ placesOf s.ring i + 1 = heldB s then
      placedRing s.ms (heldB s) i (placesOf s.ring i) s.ring
    else s.ring
  | none => s.ring

/-- BATCH_AGE_EXPIRY (R141): the batch age timer stops and makes a flush request. -/
def execBatchAgeExpiry (s : State) : Host.Outcome State Fault Refusal :=
  match s.ring.age with
  | some t =>
    if timerDue s.ms t then .next (requestFlushOn (ringAtExpiry s) (modRing (fun r => { r with age := none }) s))
    else .next s
  | none => .next s

/-! ## READY slots (R135 to R138) -/

/-- R136: the next slot in ring order becomes FILLING if it is FREE, and otherwise the ring is blocked on it. -/
def advanceFill (i : Nat) (r : Ring) : Ring :=
  let j := (i + 1) % r.slots.length
  match slotStateOf r j with
  | .free => discardFlush { setSlot j { state := .filling, places := 0 } r with fill := .filling j }
  | .filling => { r with fill := .blocked j }
  | .ready => { r with fill := .blocked j }

/-- R137: RING_BLOCKED is latched where the ring is blocked. -/
def latchIfBlocked (s : State) : State := if ringBlocked s.ring then latchPart .ringBlocked s else s

/-- R136: slot `i` becomes READY. -/
def slotReady (i b : Nat) (s : State) : State :=
  let t := modRing (fun r => { setSlot i { state := .ready, places := b } r with index := r.index + 1 }) s
  latchIfBlocked
    (modRing (advanceFill i) (latchPart .batchReady (offerWord ringIndexAt (ringIndexWord t.ring.index) t)))

/-- R135: the FILLING slot has B places assigned, no FILLER awaiting admission and no write outstanding. -/
def readySlot (s : State) : Option Nat :=
  match s.ring.fill with
  | .filling i =>
    if placesOf s.ring i = heldB s ∧ s.ring.fillers = 0 ∧ s.ring.outstanding = 0 ∧ s.ring.resetWait = false then some i
    else none
  | .blocked _ => none
  | .none => none

/-- R135: a RECORD write of the FILLING slot is complete. -/
def recordWriteDone (s : State) : State :=
  let t := modRing (fun r => { r with outstanding := r.outstanding - 1 }) s
  match readySlot t with
  | some i => slotReady i (heldB t) t
  | none => t

/-- R138: the slot whose first beat the bytes from `a` to `a + 8 n − 1` cover. -/
def coveredSlot (s : State) (a n : Nat) : Option Nat :=
  (List.range s.ring.slots.length).find? fun i => decide (a ≤ slotAddr s i) && decide (slotAddr s i + 8 ≤ a + 8 * n)

/-- R138: the effect of an acknowledging read of slot `i` on the ring. -/
def takenRing (i : Nat) (r : Ring) : Ring :=
  match slotStateOf r i with
  | .ready =>
    if r.fill = .blocked i then discardFlush { setSlot i { state := .filling, places := 0 } r with fill := .filling i }
    else setSlot i { state := .free, places := 0 } r
  | .free => r
  | .filling => r

/-- R138: slot `i` is taken; no slot is taken while RESET_PART awaits the ring writer (R143). -/
def takeSlot (i : Nat) (s : State) : State := if s.ring.resetWait then s else modRing (takenRing i) s

/-! ## RESET_PART (R143, R182) -/

/-- R143: the ring writer after it has taken RESET_PART. -/
def resetRing (r : Ring) : Ring :=
  { Ring.initial with
    slots := freshSlots r.slots.length, fill := .filling 0, batchAge := r.batchAge, flushOnTail := r.flushOnTail }

/-- R190: the start-up record written with a cause, the count of resets increased. -/
def writeStartUp (cause : StartUpCause) (s : State) : State :=
  let t := modStatus (fun st => { st with resets := sat16 (st.resets + 1) }) s
  offerWord startUpAt (startUpRecord cause t.setup.strap t.status.resets) t

/-- R143, R184: the ring writer takes RESET_PART; RING_BLOCKED is then no longer present, and no longer set (log 22). -/
def ringTakesReset (s : State) : State :=
  let t := offerWord ringIndexAt (ringIndexWord 0) (modRing resetRing s)
  setLatched .part (t.status.part.latched &&& ~~~condSet (partCondBit .ringBlocked)) t

/-- R182: the third part: the start-up record, then DONE. -/
def finishReset (s : State) : State :=
  match s.setup.command with
  | .inProgress r => endCommand r .done 0 (writeStartUp .command s)
  | .ready => s

/-- RING_RESET_PART_TAKE (R143): taken once every RECORD write is answered. -/
def execRingResetPartTake (s : State) : Host.Outcome State Fault Refusal :=
  if s.ring.resetWait = true ∧ s.ring.outstanding = 0 then .next (finishReset (ringTakesReset s)) else .next s

end Sys2Proof.Machine
end

