-- ==== Sys2Proof/Machine/MemoryPath.lean ====
section
/-! DEFINITION. The memory path: acceptance, forwarding, the arbiter, responses (R159 to R168, R186). -/

namespace Sys2Proof.Machine

/-! ## Acceptance (R159, R160, R172, R173) -/

/-- R159: the transactions of the list that are not held. -/
def notHeldCount (p : Path) : Nat := (p.list.filter fun t => !t.held).length

/-- R160: what a transaction accepted now is classed against. -/
def watchNow (s : State) : Watch :=
  if s.resetLine then .none
  else
    match s.setup.geometry with
    | none => .setupOnly
    | some _ => .all

/-- A transaction added to the system-side list, in the order of acceptance. -/
def listTxn (t : SysTxn) (s : State) : State := modPath (fun p => { p with list := p.list ++ [t] }) s

/-- R172: beats from address `a` on merged into the staged copy where they fall in host-written regions. -/
def stageBeats (base a : Nat) : List Beat → Store Byte → Store Byte
  | [], m => m
  | b :: bs, m =>
    stageBeats base (a + 8) bs
      (if base ≤ a ∧ a < base + setupSize then mergeBeat hostWritten (a - base) b.data b.enables 8 m else m)

/-- R172: a write staged. -/
def stageWrite (a : Nat) (beats : List Beat) (s : State) : State :=
  { s with setup := { s.setup with staged := stageBeats (setupBase s.setup.strap) a beats s.setup.staged } }

/-- R173: a write from address `a` has its enable for byte 7 of the command word set. -/
def startsCommand (base : Nat) : Nat → List Beat → Bool
  | _, [] => false
  | a, b :: bs => (decide (a = base + commandWordAt) && b.enables.getLsbD 7) || startsCommand base (a + 8) bs

/-- R161, R159: the trailer beats given a verdict at once rewritten. -/
def applyRewrites (rs : List (Nat × Word64)) (beats : List Beat) : List Beat :=
  rs.foldl (fun bs r => rewriteBeat r.1 r.2 bs) beats

/-- R159: a write accepted with the reset line released: taken by line capture, staged, listed, and its command started. -/
def acceptWrite (id a : Nat) (beats : List Beat) (s : State) : State :=
  let x := captureWrite id a beats s
  let t :=
    settleCommand
      (listTxn { id := id, addr := a, body := .write (applyRewrites x.rewrites beats), held := x.isHeld, watch := watchNow s }
        (stageWrite a beats x.st))
  if startsCommand (setupBase s.setup.strap) a beats then startCommand t else t

/-- R159, R169: a transaction accepted. While the reset line is asserted it is listed unexamined. -/
def acceptTxn (p : PortTxn) (s : State) : State :=
  match p.body with
  | .read n => listTxn { id := p.id, addr := p.addr, body := .read n, held := false, watch := watchNow s } s
  | .write beats =>
    if s.resetLine then
      listTxn { id := p.id, addr := p.addr, body := .write beats, held := false, watch := .none } s
    else acceptWrite p.id p.addr beats s

/-- R159: the transactions the system side waits with are accepted, in order, while the list has room. -/
def drainPort : List PortTxn → State → State
  | [], s => modPath (fun p => { p with port := [] }) s
  | t :: ts, s =>
    if notHeldCount s.path < 8 then drainPort ts (acceptTxn t s) else modPath (fun p => { p with port := t :: ts }) s

/-- The system side presents a transaction: accepted, or waiting while acceptance is withheld (R159; log 4). -/
def presentTxn (a : Nat) (body : Body) (s : State) : State :=
  let t : PortTxn := { id := s.path.nextId, addr := a, body := body }
  let u := modPath (fun p => { p with nextId := p.nextId + 1 }) s
  if s.path.port = [] ∧ notHeldCount s.path < 8 then acceptTxn t u
  else modPath (fun p => { p with port := p.port ++ [t] }) u

/-- A write presented, if it is a transaction of section 9.1's table. -/
def presentWrite (a : Nat) (beats : List Beat) (s : State) : Host.Outcome State Fault Refusal :=
  if a % 8 = 0 ∧ 1 ≤ beats.length ∧ beats.length ≤ 16 then .next (presentTxn a (.write beats) s)
  else .refused .notATransaction

/-- SYSTEM_WRITE (R159). -/
def execSystemWrite (mf : BitVec 8) (addr : BitVec 40) (beats : List Beat) (s : State) :
    Host.Outcome State Fault Refusal :=
  presentWrite addr.toNat beats { s with mfIn := mf }

/-- SYSTEM_READ (R162). -/
def execSystemRead (addr : BitVec 40) (n : Nat) (s : State) : Host.Outcome State Fault Refusal :=
  if addr.toNat % 8 = 0 ∧ 1 ≤ n ∧ n ≤ 16 then .next (presentTxn addr.toNat (.read n) s) else .refused .notATransaction

/-- STAGED_WRITE (R172): a write at an offset of the setup block, wherever the straps have placed it. -/
def execStagedWrite (offset : BitVec 14) (beats : List Beat) (s : State) : Host.Outcome State Fault Refusal :=
  presentWrite (setupBase s.setup.strap + offset.toNat) beats s

/-- The host's write of the whole command word (R173). -/
def writeCommand (code tag : Byte) (mask : BitVec 16) (s : State) : State :=
  presentTxn (setupBase s.setup.strap + commandWordAt) (.write [commandBeat code tag mask]) s

/-! ## Issue (R162, R164, R166, R167) -/

/-- The beats of a body. -/
def bodyBeats : Body → Nat
  | .write beats => beats.length
  | .read n => n

/-- R162: two ranges share a byte. -/
def overlaps (t u : SysTxn) : Bool :=
  decide (t.addr < u.addr + 8 * bodyBeats u.body) && decide (u.addr < t.addr + 8 * bodyBeats t.body)

/-- R162: the earliest-accepted transaction that is not held and overlaps none accepted before it; `before` lists those. -/
def firstEligible (before : List SysTxn) : List SysTxn → Option SysTxn
  | [] => none
  | t :: ts =>
    if t.held = false ∧ before.any (overlaps t) = false then some t else firstEligible (before ++ [t]) ts

/-- R162: the system side's eligible transaction. -/
def eligibleTxn (p : Path) : Option SysTxn := firstEligible [] p.list

/-- The other side. -/
def otherSide : Side → Side
  | .system => .part
  | .part => .system

/-- R167: the side the arbiter gives the memory side to, when it can take a transaction. -/
def grantedSide (p : Path) : Option Side :=
  match (eligibleTxn p).isSome, p.queue.isEmpty with
  | true, true => some .system
  | false, false => some .part
  | true, false => if p.queue.length < 24 then some .system else some (otherSide p.lastSide)
  | false, true => none

/-- R186: the condition words that a read covers, by number, each with its published copy as it stands now. -/
def shownCopies (s : State) (t : SysTxn) : List (Nat × BitVec 16) :=
  (allOwners.filter fun o =>
      decide (t.addr ≤ setupBase s.setup.strap + conditionAt (ownerIndex o)) &&
        decide (setupBase s.setup.strap + conditionAt (ownerIndex o) + 8 ≤ t.addr + 8 * bodyBeats t.body)).map
    fun o => (ownerIndex o, (condWordOf s.status o).published)

/-- Whether a body is a read. -/
def isRead : Body → Bool
  | .write _ => false
  | .read _ => true

/-- R161: a listed transaction is issued on the memory side. -/
def issueSystem (t : SysTxn) (s : State) : State :=
  modPath
    (fun p =>
      { p with
        list := p.list.filter fun u => decide (u.id ≠ t.id)
        sysOut := p.sysOut ++
          [{ id := t.id, addr := t.addr, beats := bodyBeats t.body, isRead := isRead t.body, watch := t.watch
             shown := if isRead t.body = true ∧ t.watch ≠ .none then shownCopies s t else [] }]
        lastSide := .system
        memLog := p.memLog ++ [.fromSystem t.id t.addr t.body] })
    s

/-- R164, R166: the head `e` of the outgoing write queue is issued; the lowest deferred content enters in the same act. -/
def issuePartTo (e : OutEntry) (p : Path) : Path :=
  enterDeferred
    { p with
      queue := p.queue.drop 1
      partOut := p.partOut ++ [{ id := p.nextId, kind := e.kind, addr := e.addr, data := e.data, live := true }]
      nextId := p.nextId + 1
      lastSide := .part
      memLog := p.memLog ++ [.fromPart p.nextId e] }

/-- R167: a part write is issued; FILLER records refused before are offered again (R140, R165). -/
def issuePart (e : OutEntry) (s : State) : State := retryFillers (modPath (issuePartTo e) s)

/-- The transactions waiting at the port are accepted while there is room (R159). -/
def acceptWaiting (s : State) : State := drainPort s.path.port s

/-- R167: the memory side can take a transaction. -/
def grantMemorySide (s : State) : State :=
  match grantedSide s.path with
  | some .system =>
    match eligibleTxn s.path with
    | some t => acceptWaiting (issueSystem t s)
    | none => s
  | some .part =>
    match s.path.queue with
    | e :: _ => issuePart e s
    | [] => s
  | none => s

/-- MEMORY_SIDE_GRANT (R167). -/
def execMemorySideGrant (mf : BitVec 8) (s : State) : Host.Outcome State Fault Refusal :=
  .next (grantMemorySide { s with mfIn := mf })

/-! ## Responses (R161, R168, R138, R185, R186) -/

/-- R161: a response passed back to the system side. -/
def passBack (o : SysOut) (status : RespStatus) (data : List Word64) (s : State) : State :=
  modPath
    (fun p =>
      { p with
        sysOut := p.sysOut.filter fun u => decide (u.id ≠ o.id)
        sysLog := p.sysLog ++ [{ id := o.id, status := status, data := data }] })
    s

/-- The owner of the condition word numbered `i`. -/
def ownerOf (i : Nat) : Owner := if h : i < 16 then .chan ⟨i, h⟩ else .part

/-- R186: the condition words that a read covered, each cleared as if read alone. That they are cleared, and written again,
in ascending address order is the model's choice (log 41). -/
def clearCovered (shown : List (Nat × BitVec 16)) (s : State) : State :=
  shown.foldl (fun t w => clearShown (ownerOf w.1) w.2 t) s

/-- R138: the slot, if any, that a read taken as an acknowledgement covers. -/
def acknowledge (o : SysOut) (s : State) : State :=
  match coveredSlot s o.addr o.beats with
  | some i => takeSlot i s
  | none => s

/-- R138, R186: what a read returned OK does to the status unit and the ring writer. -/
def readReturned (o : SysOut) (s : State) : State :=
  match o.watch with
  | .none => s
  | .setupOnly => clearCovered o.shown s
  | .all => acknowledge o (clearCovered o.shown s)

/-- R160, R161: a system-side transaction is answered; a read returned OK acts in the same act. -/
def answerSystem (o : SysOut) (status : RespStatus) (data : List Word64) (s : State) : State :=
  let t := passBack o status data s
  match status with
  | .ok => if o.isRead then readReturned o t else t
  | .error => t

/-- The answer to transaction `id`; an answer to none that is outstanding does not happen (log 25). -/
def answerId (id : Nat) (status : RespStatus) (data : List Word64) (s : State) : State :=
  match s.path.sysOut.find? fun o => decide (o.id = id) with
  | some o => answerSystem o status data s
  | none => s

/-- READ_DATA_RETURN (R161). -/
def execReadDataReturn (id : Nat) (status : RespStatus) (data : List Word64) (s : State) :
    Host.Outcome State Fault Refusal :=
  .next (answerId id status data s)

/-- BATCH_TAKE (R138): a read returned OK takes the READY slot whose first beat it covers. -/
def execBatchTake (id : Nat) (data : List Word64) (s : State) : Host.Outcome State Fault Refusal :=
  .next (answerId id .ok data s)

/-- CONDITION_WORD_READ (R186): a read returned OK clears the conditions it was shown. -/
def execConditionWordRead (id : Nat) (data : List Word64) (s : State) : Host.Outcome State Fault Refusal :=
  .next (answerId id .ok data s)

/-- R168: an ERROR response sets MEMORY_ERROR and is counted. -/
def countMemoryError (s : State) : State :=
  latchPart .memoryError (modPartCounters (fun k => { k with memoryErrors := sat16 (k.memoryErrors + 1) }) s)

/-- The owner of the condition word at an address. -/
def ownerAt (s : State) (addr : Nat) : Option Owner :=
  allOwners.find? fun o => decide (addr = setupBase s.setup.strap + conditionAt (ownerIndex o))

/-- R185: an OK response to a condition word's write gives its published copy, unless a later write has given it. -/
def publish (o : PartOut) (w : CondWord) : CondWord :=
  if w.publishedBy ≤ o.id then { w with published := BitVec.ofNat 16 (leNat (o.data.take 2)), publishedBy := o.id } else w

/-- R185: the published copy follows a response OK. -/
def publishWord (o : PartOut) (s : State) : State :=
  match ownerAt s o.addr with
  | some k => modStatus (fun st => setCondWord k (publish o (condWordOf st k)) st) s
  | none => s

/-- R168: the block that made the write is told of its completion. -/
def tellProducer (o : PartOut) (status : RespStatus) (s : State) : State :=
  match o.kind with
  | .record => recordWriteDone s
  | .status => s
  | .word =>
    match status with
    | .ok => publishWord o s
    | .error => s

/-- R168: the response to an outstanding part write; one issued before the reset line was asserted is absorbed (R169). An ERROR
is counted and MEMORY_ERROR latched before the block that made the write is told, so on the last RECORD write of a full slot
the part-wide condition word is offered before the ring index word of R136: the model's choice (log 45). -/
def answerPart (o : PartOut) (status : RespStatus) (s : State) : State :=
  let t := modPath (fun p => { p with partOut := p.partOut.filter fun u => decide (u.id ≠ o.id) }) s
  if o.live then
    match status with
    | .ok => tellProducer o status t
    | .error => tellProducer o status (countMemoryError t)
  else t

/-- PART_WRITE_RESPONSE (R168); a response to no outstanding write does not happen (log 25). -/
def execPartWriteResponse (id : Nat) (status : RespStatus) (s : State) : Host.Outcome State Fault Refusal :=
  match s.path.partOut.find? fun o => decide (o.id = id) with
  | some o => .next (answerPart o status s)
  | none => .next s

end Sys2Proof.Machine
end

