-- ==== Sys2Proof/Machine/Commands.lean ====
section
/-! DEFINITION. The commands that the host gives by writing the command word (R173 to R182). -/

namespace Sys2Proof.Machine

/-- APPLY (R175). -/
def execApply (tag : Byte) (mask : BitVec 16) (s : State) : Host.Outcome State Fault Refusal :=
  .next (writeCommand 1 tag mask s)

/-- START (R180). -/
def execStart (tag : Byte) (mask : BitVec 16) (s : State) : Host.Outcome State Fault Refusal :=
  .next (writeCommand 2 tag mask s)

/-- START_REPLAY (R180). -/
def execStartReplay (tag : Byte) (mask : BitVec 16) (s : State) : Host.Outcome State Fault Refusal :=
  .next (writeCommand 3 tag mask s)

/-- STOP (R35). -/
def execStop (tag : Byte) (mask : BitVec 16) (s : State) : Host.Outcome State Fault Refusal :=
  .next (writeCommand 4 tag mask s)

/-- ISOLATE (R35). -/
def execIsolate (tag : Byte) (mask : BitVec 16) (s : State) : Host.Outcome State Fault Refusal :=
  .next (writeCommand 5 tag mask s)

/-- RESTART (R36). -/
def execRestart (tag : Byte) (mask : BitVec 16) (s : State) : Host.Outcome State Fault Refusal :=
  .next (writeCommand 6 tag mask s)

/-- FLUSH (R181). -/
def execFlush (tag : Byte) (mask : BitVec 16) (s : State) : Host.Outcome State Fault Refusal :=
  .next (writeCommand 7 tag mask s)

/-- RESET_PART (R182). -/
def execResetPart (tag : Byte) (mask : BitVec 16) (s : State) : Host.Outcome State Fault Refusal :=
  .next (writeCommand 8 tag mask s)

/-- UNKNOWN_COMMAND (R174): the command word written with a code of the host's; with a code 1 to 8 that is the command
of the code. -/
def execUnknownCommand (code tag : Byte) (mask : BitVec 16) (s : State) : Host.Outcome State Fault Refusal :=
  .next (writeCommand code tag mask s)

end Sys2Proof.Machine
end

