-- ==== Sys2Proof/Machine/EngineSteps.lean ====
section
/-! DEFINITION. The engine's grant and completion, and the hold, stall and abandon timers (R20, R32, R43 to R48). -/

namespace Sys2Proof.Machine

/-! ## The grant (R44 to R46) -/

/-- R44: the channel requests the engine: its head entry is QUEUED and to be analysed. -/
def requests (s : State) (c : Chan) : Bool :=
  match (s.chan c).capture.queue.head? with
  | some e =>
    decide ((entryOf (s.chan c).capture e).state = .queued) &&
      decide ((entryOf (s.chan c).capture e).cls = some .toAnalyse)
  | none => false

/-- R45: the channels in the order last served + 1, last served + 2 and so on, modulo 16. -/
def serviceOrder (last : Chan) : List Chan := allChans.map fun i => last + 1 + i

/-- R45: the requesting channel that comes first. -/
def nextChannel (s : State) : Option Chan := (serviceOrder s.engine.lastServed).find? (requests s)

/-- R28: the role of a line at its grant. -/
def roleOf (e : Entry) (r : ChanRecord) : Role :=
  if e.isHead then .seed else if 1 ≤ r.warmupLeft then .warmup else .ordinary

/-- R45, R46: the engine is granted to channel `c`, whose head entry is `e`. -/
def grantEngine (c : Chan) (e : Fin 2) (s : State) : State :=
  let t := switchInspecting c s
  let ch := t.chan c
  modCapture c (fun k => setEntry k e { entryOf k e with state := .engaged })
    { t with
      engine :=
        { analysis := some { chan := c, role := roleOf (entryOf ch.capture e) ch.record, params := ch.params }
          lastServed := c } }

/-- R45: the channel and the entry that a grant would go to now. -/
def grantable (s : State) : Option (Chan × Fin 2) :=
  if s.engine.analysis.isNone then
    match nextChannel s with
    | some c => ((s.chan c).capture.queue.head?).map fun e => (c, e)
    | none => none
  else none

/-- ENGINE_GRANT (R45). -/
def execEngineGrant (s : State) : Host.Outcome State Fault Refusal :=
  match grantable s with
  | some (c, e) => .next (settleCommand (grantEngine c e s))
  | none => .next s

/-! ## The completion (R48) -/

/-- R48 step 1, R69: the background written and the conditions and counters of the outcome set. -/
def applyOutcome (c : Chan) (r : LineResult) (s : State) : State :=
  let t := modChan c (fun ch => { ch with background := r.background }) s
  let t := if r.verdict = .obscured then latchChan c .obscured (modCounters c (fun k => { k with obscured := sat16 (k.obscured + 1) }) t) else t
  let t := if r.flags.stuck then latchChan c .stuckColumn t else t
  if r.flags.clutter then latchChan c .runClutter t else t

/-- What the track table takes of the line (R90). -/
def lineRunsOf (en : Entry) (p : ChanParams) (pos : Nat) (r : LineResult) : LineRuns :=
  { seq := lineSeq en, count := lineCount en, pos := pos, runs := r.fed, clutter := r.flags.clutter, ls := p.ls, g := p.g }

/-- R48 step 2: an ANALYSED line goes to the track table and then to the band tracker. -/
def applyRuns (c : Chan) (set : ParamSet) (en : Entry) (r : LineResult) (s : State) : State :=
  match r.verdict with
  | .analysed =>
    let pos := position (lineCount en) (s.chan c).record.headCount set.strand.scale
    takeBandOutcome c set (lineCount en) pos r.band (takeLine c set (lineRunsOf en set.chan pos r) s)
  | .seed => s
  | .warmup => s
  | .obscured => s

/-- R29: the last analysed count, never moved backwards. -/
def furthestCount (last count : Word32) : Word32 := if atOrAhead count last then count else last

/-- R29: a completion's update of the channel record. -/
def completedRecord (v : FinalVerdict) (role : Role) (count : Word32) (r : ChanRecord) : ChanRecord :=
  match v with
  | .seed => r
  | .warmup => { r with warmupLeft := r.warmupLeft - 1, lastAnalysed := furthestCount r.lastAnalysed count }
  | .obscured =>
    { r with
      warmupLeft := if role = .warmup then r.warmupLeft - 1 else r.warmupLeft
      lastAnalysed := furthestCount r.lastAnalysed count }
  | .analysed =>
    { r with
      lastAnalysed := furthestCount r.lastAnalysed count
      tallies := { r.tallies with analysed := sat16 (r.tallies.analysed + 1) } }

/-- R48 step 3, R29: the channel record updated, and the lines-analysed counter with the tally. -/
def applyRecord (a : Analysis) (count : Word32) (v : FinalVerdict) (s : State) : State :=
  let t := modRecord a.chan (completedRecord v a.role count) s
  if v = .analysed then modCounters a.chan (fun k => { k with analysed := sat16 (k.analysed + 1) }) t else t

/-- R48 step 4: the verdict word is formed, and the held trailer released with it if it is still held. -/
def releaseVerdict (c : Chan) (e : Fin 2) (r : LineResult) (s : State) : State :=
  match heldOf s c e with
  | some h => releaseTrailer c h (resultWord r (s.chan c).tracks.length) s
  | none => s

/-- R32: a billet ending by an abandon expiry that fell during the analysis; a channel that a completion has brought back
to INSPECTING meanwhile first switches to a waiting set (R179; log 16, log 19). -/
def endAbandoned (c : Chan) (s : State) : State :=
  if (s.chan c).record.abandonDue then abandonBillet c (switchInspecting c s) else s

/-- R33: the channel's pending command is taken. -/
def takePending (c : Chan) (s : State) : State :=
  match (s.chan c).record.pendingCmd with
  | some k => takeCommand c k s
  | none => s

/-- R48 step 6: the engine becomes IDLE. -/
def idleEngine (s : State) : State := { s with engine := { s.engine with analysis := none } }

/-- R48 steps 5 and 6: the entry retired, a deferred abandon, then RESET_PART's second part (log 21) or a pending command
and the next entry at the head; the engine IDLE. -/
def afterRetirement (c : Chan) (s : State) : State :=
  let t := endAbandoned c s
  if resetPartWaits t then resetSecondPart (idleEngine t) else idleEngine (serveHead c 3 (takePending c t))

/-- R48: the completion of analysis `a` of the line of entry `e`. -/
def completeAnalysis (a : Analysis) (e : Fin 2) (s : State) : State :=
  let c := a.chan
  let en := entryOf (s.chan c).capture e
  let r := analyse a.role (heldW s) a.params.chan (pixel en) (s.chan c).background
  afterRetirement c
    (retire c e (verdictSeen r.verdict)
      (releaseVerdict c e r
        (applyRecord a (lineCount en) r.verdict (applyRuns c a.params en r (applyOutcome c r s)))))

/-- ANALYSIS_COMPLETION (R48). -/
def execAnalysisCompletion (s : State) : Host.Outcome State Fault Refusal :=
  match s.engine.analysis with
  | some a =>
    match (s.chan a.chan).capture.queue.head? with
    | some e => .next (settleCommand (completeAnalysis a e s))
    | none => .next (idleEngine s)
  | none => .next s

/-! ## Timers (R20, R32) -/

/-- R20: the trailer leaves with PENDING. -/
def releasePending (c : Chan) (h : HeldTrailer) (s : State) : State :=
  latchChan c .holdExpired
    (modCounters c (fun k => { k with pending := sat16 (k.pending + 1) }) (releaseTrailer c h (plainWord .pending) s))

/-- HOLD_TIMER_EXPIRY (R20). -/
def execHoldTimerExpiry (c : Chan) (e : Fin 2) (s : State) : Host.Outcome State Fault Refusal :=
  match heldOf s c e with
  | some h => if h.length ≤ distance s.us h.start then .next (releasePending c h s) else .next s
  | none => .next s

/-- R32: an abandon timer started now with the channel's ABANDON_S. -/
def freshAbandon (now : Word32) (p : ChanParams) : MsTimer := { start := now, length := 1000 * p.abandonS }

/-- R32, R179: INSPECTING becomes STALLED; a waiting set is switched to as the channel leaves INSPECTING (log 19). -/
def stallChannel (c : Chan) (s : State) : State :=
  latchChan c .stall
    (modChan c
      (fun ch =>
        { ch with
          record := { ch.record with
            state := .stalled, stall := none, abandon := some (freshAbandon s.ms ch.params.chan) } })
      (switchParams c s))

/-- STALL_TIMER_EXPIRY (R32). -/
def execStallTimerExpiry (c : Chan) (s : State) : Host.Outcome State Fault Refusal :=
  match (s.chan c).record.state, (s.chan c).record.stall with
  | .inspecting, some t => if timerDue s.ms t then .next (settleCommand (stallChannel c s)) else .next s
  | _, _ => .next s

/-- R32: an abandon expiry: at once where no analysis of the channel is in flight, at its completion otherwise. A line
that waits at the head for the engine is handed anew, in WAITING (log 17). -/
def abandonExpires (c : Chan) (s : State) : State :=
  if inFlight s c then modRecord c (fun r => { r with abandon := none, abandonDue := true }) s
  else serveHead c 3 (abandonBillet c s)

/-- ABANDON_TIMER_EXPIRY (R32). -/
def execAbandonTimerExpiry (c : Chan) (s : State) : Host.Outcome State Fault Refusal :=
  match (s.chan c).record.state, (s.chan c).record.abandon with
  | .stalled, some t => if timerDue s.ms t then .next (abandonExpires c s) else .next s
  | _, _ => .next s

end Sys2Proof.Machine
end

