-- ==== Sys2Proof/Machine/Resets.lean ====
section
/-! DEFINITION. Power-on and the reset line (R37, R143, R154, R169, R170, R183 to R185, R190). -/

namespace Sys2Proof.Machine

/-- POWER_ON (R37): every block at its power-on values, the straps read, the start-up writes offered. The queue of
commands, the levels on the MF lines and the model's own counters are no part of the part's state (log 29). The reset line
counts as not asserted on leaving power-on, even where it was asserted before: the model's choice (log 43). -/
def execPowerOn (straps : BitVec 4) (s : State) : Host.Outcome State Fault Refusal :=
  .next
    { State.powerOn straps with
      pending := s.pending, mfIn := s.mfIn, freeCount := s.freeCount
      path := { (State.powerOn straps).path with nextId := s.path.nextId } }

/-- R163, R169: the memory path at the assertion: held trailers released unmodified in their places, nothing classed, the
part's own writes dropped and their answers to be absorbed. A trailer rewritten before the assertion (R19, R159) keeps its
verdict (log 38). -/
def assertPath (p : Path) : Path :=
  { p with
    list := p.list.map fun t => { t with held := false, watch := .none }
    queue := [], deferred := []
    sysOut := p.sysOut.map fun o => { o with watch := .none }
    partOut := p.partOut.map fun o => { o with live := false }
    lastSide := .system }

/-- An owner's latched set emptied (R184). -/
def emptyLatched (w : CondWord) : CondWord := { w with latched := 0 }

/-- R184, R187, R188: the status unit at the assertion; the snapshot timer is stopped with it (log 14). -/
def assertStatus (st : Status) : Status :=
  { st with
    words := st.words.map emptyLatched, part := emptyLatched st.part, counters := Bank16.all ChanCounters.zero
    partCounters := PartCounters.zero, summary := 0, snapshot := none }

/-- R169: the state of the part as the reset line is asserted. -/
def assertReset (s : State) : State :=
  { s with
    resetLine := true, chans := s.chans.map resetChannel, unrouted := none, engine := Engine.initial
    ring := Ring.initial, strands := Bank4.all StrandState.initial, path := assertPath s.path
    setup := { s.setup with command := .ready }, status := assertStatus s.status }

/-- RESET_LINE_ASSERT (R169). -/
def execResetLineAssert (s : State) : Host.Outcome State Fault Refusal :=
  if s.resetLine then .next s else .next (assertReset s)

/-- R183, R185: the state of the part as the reset line is released, before its first write. -/
def releaseReset (straps : BitVec 4) (s : State) : State :=
  { s with
    resetLine := false, chans := Bank16.all Channel.initial, setup := Setup.initial straps
    status := { Status.initial with resets := s.status.resets } }

/-- R185: the 17 condition words written with the empty set, in ascending address order. -/
def writeEmptyConditions (s : State) : State :=
  allOwners.foldl (fun t o => offerWord (conditionAt (ownerIndex o)) (conditionWord 0) t) s

/-- R190: the start-up record first, then the condition words, then the attention summary word with 0. -/
def releaseWrites (s : State) : State :=
  offerWord attentionAt (attentionWord 0) (writeEmptyConditions (writeStartUp .resetLine s))

/-- RESET_LINE_RELEASE (R183, R190). -/
def execResetLineRelease (straps : BitVec 4) (s : State) : Host.Outcome State Fault Refusal :=
  if s.resetLine then .next (releaseWrites (releaseReset straps s)) else .next s

end Sys2Proof.Machine
end

