-- ==== Sys2Proof/Machine/Clock.lean ====
section
/-! DEFINITION. The reference clock: one microsecond of the part's time (R191). -/

namespace Sys2Proof.Machine

/-- R191: one microsecond passes; every 1000 of them the millisecond count advances. A timer whose length has run out
then has its expiry due: the expiry is a command of its own (log 1, log 6). -/
def tick (s : State) : State :=
  if s.usInMs < 999 then { s with us := s.us + 1, usInMs := s.usInMs + 1 }
  else { s with us := s.us + 1, usInMs := 0, ms := s.ms + 1 }

end Sys2Proof.Machine
end

