-- ==== Sys2Proof/Machine/Dispatch.lean ====
section
/-! DEFINITION. The meaning of every command: one arm for each row of the table. -/

namespace Sys2Proof.Machine

/-- The command's effect on everything but the queue of commands. -/
def exec (i : Instr) (s : State) : Host.Outcome State Fault Refusal :=
  match i with
  | .powerOn straps => Sys2Proof.Machine.execPowerOn straps s
  | .resetLineAssert => Sys2Proof.Machine.execResetLineAssert s
  | .resetLineRelease straps => Sys2Proof.Machine.execResetLineRelease straps s
  | .systemWrite mf addr beats => Sys2Proof.Machine.execSystemWrite mf addr beats s
  | .systemRead addr beats => Sys2Proof.Machine.execSystemRead addr beats s
  | .engineGrant => Sys2Proof.Machine.execEngineGrant s
  | .analysisCompletion => Sys2Proof.Machine.execAnalysisCompletion s
  | .holdTimerExpiry c entry => Sys2Proof.Machine.execHoldTimerExpiry c entry s
  | .stallTimerExpiry c => Sys2Proof.Machine.execStallTimerExpiry c s
  | .abandonTimerExpiry c => Sys2Proof.Machine.execAbandonTimerExpiry c s
  | .apply tag mask => Sys2Proof.Machine.execApply tag mask s
  | .start tag mask => Sys2Proof.Machine.execStart tag mask s
  | .startReplay tag mask => Sys2Proof.Machine.execStartReplay tag mask s
  | .stop tag mask => Sys2Proof.Machine.execStop tag mask s
  | .isolate tag mask => Sys2Proof.Machine.execIsolate tag mask s
  | .restart tag mask => Sys2Proof.Machine.execRestart tag mask s
  | .flush tag mask => Sys2Proof.Machine.execFlush tag mask s
  | .resetPart tag mask => Sys2Proof.Machine.execResetPart tag mask s
  | .unknownCommand code tag mask => Sys2Proof.Machine.execUnknownCommand code tag mask s
  | .stagedWrite offset beats => Sys2Proof.Machine.execStagedWrite offset beats s
  | .batchTake id data => Sys2Proof.Machine.execBatchTake id data s
  | .conditionWordRead id data => Sys2Proof.Machine.execConditionWordRead id data s
  | .readDataReturn id status data => Sys2Proof.Machine.execReadDataReturn id status data s
  | .memorySideGrant mf => Sys2Proof.Machine.execMemorySideGrant mf s
  | .partWriteResponse id status => Sys2Proof.Machine.execPartWriteResponse id status s
  | .recordPlacement => Sys2Proof.Machine.execRecordPlacement s
  | .flushApply => Sys2Proof.Machine.execFlushApply s
  | .ringResetPartTake => Sys2Proof.Machine.execRingResetPartTake s
  | .batchAgeExpiry => Sys2Proof.Machine.execBatchAgeExpiry s
  | .pulseEnd strand => Sys2Proof.Machine.execPulseEnd strand s
  | .markExpiry strand trigger => Sys2Proof.Machine.execMarkExpiry strand trigger s
  | .snapshotExpiry => Sys2Proof.Machine.execSnapshotExpiry s

end Sys2Proof.Machine
end

