-- ==== Sys2Proof/Safety.lean ====
section
/-! DEFINITION. What counts as a sound state, and the terms in which the claims are stated. -/

namespace Sys2Proof.Safety

open Sys2Proof.Machine

/-! ## Sound states -/

/-- The sparse stores stand in their canonical form: the staged copy (R172), the line buffers (R4), the background
arrays (R61). -/
abbrev StoresCanonical (s : State) : Prop :=
  wfStore 0 s.setup.staged = true ∧
    ∀ c : Chan,
      wfStore 0 (s.chan c).capture.e0.buffer = true ∧ wfStore 0 (s.chan c).capture.e1.buffer = true ∧
        wfStore (0, 0) (s.chan c).background = true

/-- R164 to R166: the outgoing write queue holds at most 32 entries, at most 24 of them RECORD or STATUS writes; no two
STATUS or WORD entries, queued or deferred, share an address; a content is deferred only while the queue is full. -/
abbrev OutgoingSound (p : Path) : Prop :=
  p.queue.length ≤ 32 ∧
    (p.queue.filter fun e => decide (e.kind ≠ .word)).length ≤ 24 ∧
      (((p.queue.filter fun e => decide (e.kind ≠ .record)).map OutEntry.addr) ++ p.deferred.map Prod.fst).Nodup ∧
        (p.deferred.map Prod.fst).Pairwise (fun a b => a < b) ∧ (p.deferred = [] ∨ p.queue.length = 32)

/-- R130 to R132: the record queue holds at most 64 records; while a loss episode is open it is full, and the episode has
lost at least one record. -/
abbrev RecordsSound (r : Ring) : Prop :=
  r.queue.length ≤ 64 ∧
    match r.loss with
    | none => True
    | some l => r.queue.length = 64 ∧ 1 ≤ l.count ∧ l.count ≤ 4294967295

/-- R149: a strand's mark queue holds at most 8 entries, no two of them within the merge window of each other. -/
abbrev MarksSound (k : StrandState) : Prop :=
  k.queue.length ≤ 8 ∧ k.queue.Pairwise fun a b => withinMerge k.merge a.trigger b.trigger = false

/-- R88: at most 32 open tracks, their IDs rising and below 32. -/
abbrev TracksSound (ts : List Track) : Prop :=
  ts.length ≤ 32 ∧ (ts.map Track.id).Pairwise (fun a b => a < b) ∧ ∀ t ∈ ts, t.id < 32

/-- R83 to R85: the pitch ring holds at most 8 samples, and the effective pitch is what R84 gives from it and the active
parameters, within PMIN and PMAX; a waiting set has its bounds in order too. -/
abbrev PitchSound (ch : Channel) : Prop :=
  ch.band.pitchRing.length ≤ 8 ∧ ch.band.effPitch = effectivePitch ch.params.chan ch.band.pitchRing ∧
    ch.params.chan.pMin ≤ ch.band.effPitch ∧ ch.band.effPitch ≤ ch.params.chan.pMax ∧
      match ch.waiting with
      | none => True
      | some p => p.chan.pMin ≤ p.chan.pMax

/-- R187: the attention summary has the flag of each owner with an enabled condition in its latched set, and no other. -/
abbrev AttentionSound (st : Status) : Prop := st.summary = attentionOf st

/-- R169, R21, R37, R43, R143, R154, R183, R184: what the part is while the reset line is asserted: no channel, record,
mark, command or write of its own; transactions forwarded unexamined. That the transactions listed and outstanding lose their
classing is log 13's, and that the snapshot timer is stopped log 14's (both DEDUCED). -/
abbrev Quiet (s : State) : Prop :=
  s.path.queue = [] ∧ s.path.deferred = [] ∧ (∀ t ∈ s.path.list, t.held = false ∧ t.watch = .none) ∧
    (∀ o ∈ s.path.sysOut, o.watch = .none) ∧ (∀ o ∈ s.path.partOut, o.live = false) ∧
      (∀ c : Chan,
        (s.chan c).record = ChanRecord.initial ∧ (s.chan c).capture = Capture.empty ∧ (s.chan c).held = [] ∧
          (s.chan c).tracks = [] ∧ (s.chan c).background = [] ∧ (s.chan c).waiting = none ∧
            (s.chan c).band.episode = Episode.none) ∧
        s.unrouted = none ∧ s.engine.analysis = none ∧ s.ring = Ring.initial ∧
          (∀ k : Strand, s.strands.get k = StrandState.initial) ∧ s.setup.command = .ready ∧ s.status.snapshot = none ∧
            (∀ c : Chan, (s.status.words.get c).latched = 0) ∧ s.status.part.latched = 0 ∧ s.status.summary = 0

/-- While the reset line is asserted the part is quiet. -/
abbrev QuietUnderReset (s : State) : Prop := s.resetLine = true → Quiet s

/-! ## Conditions on a state -/

/-- R159: a transaction presented now is accepted at once, and examined. -/
abbrev Accepting (s : State) : Prop := s.resetLine = false ∧ s.path.port = [] ∧ notHeldCount s.path < 8

/-- R173, R174: a command written now is taken and passes the tests on the part's state. -/
abbrev CommandTaken (s : State) : Prop :=
  Accepting s ∧ s.setup.command = .ready ∧ wfStore 0 s.setup.staged = true ∧ s.setup.geometry ≠ none

/-- No channel has a command pending (R180). -/
abbrev NonePending (s : State) : Prop := ∀ c : Chan, (s.chan c).record.pendingCmd = none

/-- R180: the command is taken at once by every channel of its mask. -/
abbrev TakenAtOnce (mask : BitVec 16) (s : State) : Prop :=
  CommandTaken s ∧ mask ≠ 0 ∧ NonePending s ∧ ∀ c : Chan, mask.getLsbD c.val = true → inFlight s c = false

/-- What the host's nine writes of the command word carry: code, tag and mask (R174, R197). -/
def commandOf : Instr → Option (Byte × Byte × BitVec 16)
  | .apply tag mask => some (1, tag, mask)
  | .start tag mask => some (2, tag, mask)
  | .startReplay tag mask => some (3, tag, mask)
  | .stop tag mask => some (4, tag, mask)
  | .isolate tag mask => some (5, tag, mask)
  | .restart tag mask => some (6, tag, mask)
  | .flush tag mask => some (7, tag, mask)
  | .resetPart tag mask => some (8, tag, mask)
  | .unknownCommand code tag mask => some (code, tag, mask)
  | .powerOn _ => none
  | .resetLineAssert => none
  | .resetLineRelease _ => none
  | .systemWrite _ _ _ => none
  | .systemRead _ _ => none
  | .engineGrant => none
  | .analysisCompletion => none
  | .holdTimerExpiry _ _ => none
  | .stallTimerExpiry _ => none
  | .abandonTimerExpiry _ => none
  | .stagedWrite _ _ => none
  | .batchTake _ _ => none
  | .conditionWordRead _ _ => none
  | .readDataReturn _ _ _ => none
  | .memorySideGrant _ => none
  | .partWriteResponse _ _ => none
  | .recordPlacement => none
  | .flushApply => none
  | .ringResetPartTake => none
  | .batchAgeExpiry => none
  | .pulseEnd _ => none
  | .markExpiry _ _ => none
  | .snapshotExpiry => none

/-- The five channel commands by code (R174). -/
def chanCommandOf (code : Byte) : Option ChanCommand :=
  match code.toNat with
  | 2 => some .start
  | 3 => some .startReplay
  | 4 => some .stop
  | 5 => some .isolate
  | 6 => some .restart
  | _ => none

/-- R23, R34: channel `c` is torn down by STOP and by ISOLATE: it watches a window. -/
abbrev Watching (s : State) (c : Chan) : Prop := watches s c = true

/-! ## Beats of watched windows (R3, R6 to R10, R22, R23) -/

/-- R22, R23: no channel in mode REPLAY but `c` assembles or skips slot `j` of the replay window. -/
abbrev AloneAt (s : State) (c : Chan) (j : Nat) : Prop :=
  ∀ d : Chan, d ≠ c → replays s d = true →
    (s.chan d).capture.asm ≠ .assembling j ∧ (s.chan d).capture.asm ≠ .skipping j

/-- R23: no channel in mode REPLAY assembles or skips slot `j` of the replay window. -/
abbrev NobodyAt (s : State) (j : Nat) : Prop :=
  ∀ d : Chan, replays s d = true → (s.chan d).capture.asm ≠ .assembling j ∧ (s.chan d).capture.asm ≠ .skipping j

/-- R3, R23: the beat at address `a` is at offset `offset` of slot `j` of the window that channel `c` watches; in the replay
window no other channel assembles or skips that slot. -/
abbrev BeatReaches (s : State) (c : Chan) (j offset a : Nat) : Prop :=
  (regionOf s a = .line c j offset ∧ livesOn s c = true) ∨
    (regionOf s a = .replay j offset ∧ replays s c = true ∧ AloneAt s c j)

/-- R5, R6, R22: the written header beat 0 `b` at address `a` reaches channel `c` for slot `j`; in the replay window it names
the channel itself, and no other channel assembles or skips that slot. -/
abbrev HeaderReaches (s : State) (c : Chan) (j a : Nat) (b : Beat) : Prop :=
  b.enables ≠ 0 ∧ BeatReaches s c j 0 a ∧
    (regionOf s a = .replay j 0 →
      writtenByte b 4 ≤ 3 ∧ writtenByte b 5 ≤ 3 ∧ c.val = 4 * writtenByte b 4 + writtenByte b 5)

/-- R7: `new` is the entry `old` with beat `n` merged, byte by byte as the enables say, and the beat's flag set. -/
abbrev MergedBeat (n : Nat) (b : Beat) (old new : Entry) : Prop :=
  (∀ k : Nat,
      readStore 0 new.buffer k =
        if 8 * n ≤ k ∧ k < 8 * n + 8 ∧ b.enables.getLsbD (k - 8 * n) = true then byteOf b.data (k - 8 * n)
        else readStore 0 old.buffer k) ∧
    (∀ m : Nat, m ∈ new.beatMap ↔ m = n ∨ m ∈ old.beatMap) ∧
      new = { old with buffer := new.buffer, beatMap := new.beatMap }

/-- R5, R7: `new` is the entry `old` with the beats of one write merged, from offset `o` of the slot on. -/
abbrev MergedBeats (o : Nat) (beats : List Beat) (old new : Entry) : Prop :=
  (∀ k : Nat,
      readStore 0 new.buffer k =
        match beats[(k - o) / 8]? with
        | none => readStore 0 old.buffer k
        | some b =>
          if o ≤ k ∧ b.enables.getLsbD ((k - o) % 8) = true then byteOf b.data ((k - o) % 8)
          else readStore 0 old.buffer k) ∧
    (∀ m : Nat,
        m ∈ new.beatMap ↔ m ∈ old.beatMap ∨ ∃ (i : Nat) (b : Beat), beats[i]? = some b ∧ b.enables ≠ 0 ∧ m = o / 8 + i) ∧
      new = { old with buffer := new.buffer, beatMap := new.beatMap }

/-- R1, R3, R5, R10, R23: the beat `b` at address `a` is taken by no line, with W in use `w`: outside every region, of a window
not watched, padding, without an enable, of the slot being skipped, or of a replay slot that nobody assembles. -/
def noLine (s : State) (w a : Nat) (b : Beat) : Bool :=
  match regionOf s a with
  | .elsewhere => true
  | .setup _ => false
  | .line c j offset =>
    decide (livesOn s c = false ∨ 40 + w ≤ offset ∨
      (offset < 32 + w ∧ (b.enables = 0 ∨ (8 ≤ offset ∧ (s.chan c).capture.asm = .skipping j))))
  | .replay j offset =>
    decide (40 + w ≤ offset ∨
      (offset < 32 + w ∧
        (b.enables = 0 ∨ (8 ≤ offset ∧ ∀ d : Chan, replays s d = true → (s.chan d).capture.asm ≠ .assembling j))) ∨
      (32 + w ≤ offset ∧ NobodyAt s j ∧ s.unrouted ≠ some j))

/-- R11: the beat `b` at address `a` is stray in the window of channel `c`, with W in use `w`. -/
def strayBeat (s : State) (c : Chan) (w a : Nat) (b : Beat) : Bool :=
  match regionOf s a with
  | .elsewhere => false
  | .setup _ => false
  | .replay _ _ => false
  | .line d j offset =>
    decide (d = c ∧ (s.chan c).capture.asm ≠ .assembling j ∧ (s.chan c).capture.asm ≠ .skipping j ∧
      ((8 ≤ offset ∧ offset < 32 + w ∧ b.enables ≠ 0) ∨ (32 + w ≤ offset ∧ offset < 40 + w)))

/-- R6: `new` is an entry just claimed for slot `j`, with header beat 0 merged (what R6 does not name: log 37). -/
abbrev StartedEntry (j : Nat) (b : Beat) (new : Entry) : Prop :=
  MergedBeat 0 b { Entry.empty with state := .assembling, slot := j } new

/-- R6, R22: the unrouted slot after a header beat 0 at address `a` has reached a channel for slot `j`. -/
def unroutedAfter (s : State) (j a : Nat) : Option Nat :=
  if regionOf s a = .replay j 0 ∧ s.unrouted = some j then none else s.unrouted

/-- R17: an unseen run of `n` makes channel `c` not blind. -/
abbrev NotBlind (s : State) (c : Chan) (n : Nat) : Prop := billetOpen s c = false ∨ n ≤ (s.chan c).params.chan.maxSkip

/-- R16: the billet's tally of unseen lines after `n` more. -/
def unseenTally (s : State) (c : Chan) (n : Nat) : Nat :=
  if billetOpen s c = true then min ((s.chan c).record.tallies.unseen + n) 65535 else (s.chan c).record.tallies.unseen

/-- R6: entry `e` is the one a line claims: FREE, and the lowest. -/
abbrev Claimed (k : Capture) (e : Fin 2) : Prop := (entryOf k e).state = .free ∧ (e = 1 → k.e0.state ≠ .free)

/-- R22: the written header beat 0 `b` at address `a` is routed to channel `c` for replay slot `j`. -/
abbrev RoutedTo (s : State) (c : Chan) (j a : Nat) (b : Beat) : Prop :=
  b.enables ≠ 0 ∧ regionOf s a = .replay j 0 ∧ replays s c = true ∧ writtenByte b 4 ≤ 3 ∧ writtenByte b 5 ≤ 3 ∧
    c.val = 4 * writtenByte b 4 + writtenByte b 5

/-- R8, R14, R16: channel `c` after the line in progress of entry `e` is abandoned: the entry FREE, one line more unplaced, the
unseen contribution on the youngest entry of the queue, or on the run and an open billet's tally where it is empty. -/
def abandonedChan (s : State) (c : Chan) (e : Fin 2) : Channel :=
  let ch := s.chan c
  let k := { setEntry ch.capture e Entry.empty with asm := .idle, unplaced := min (ch.capture.unplaced + 1) 65535 }
  match ch.capture.queue.getLast? with
  | some y =>
    { ch with capture := setEntry k y { entryOf k y with unseenAfter := min ((entryOf k y).unseenAfter + 1) 65535 } }
  | none =>
    { ch with
      capture := { k with unseenRun := min (k.unseenRun + 1) 65535 }
      record := { ch.record with tallies := { ch.record.tallies with unseen := unseenTally s c 1 } } }

/-- R8, R14, R16: the counters of channel `c` after that: a MALFORMED line more, and an unseen line where the queue is empty. -/
def abandonedCounters (s : State) (c : Chan) : ChanCounters :=
  { s.status.counters.get c with
    malformed := min ((s.status.counters.get c).malformed + 1) 65535
    unseen :=
      if (s.chan c).capture.queue = [] then min ((s.status.counters.get c).unseen + 1) 65535
      else (s.status.counters.get c).unseen }

/-! ## The completion of a line (R12, R13, R15, R31, R147 to R151), restated -/

/-- R12: a last sequence is present, and the line's is equal to it or not ahead of it. -/
def sequenceTestFails (last : Option Word32) (seq : Word32) : Bool :=
  match last with
  | none => false
  | some q => decide ((seq - q).toNat = 0 ∨ 2147483648 ≤ (seq - q).toNat)

/-- R12: the causes but for the sequence: a header beat missing, a pixel beat of a HOT line missing, the pixel count, the
channel. -/
abbrev OtherCause (w : Nat) (c : Chan) (en : Entry) : Prop :=
  (∃ i : Fin 4, i.val ∉ en.beatMap) ∨ (lineHot en = true ∧ ∃ i : Fin (w / 8), 4 + i.val ∉ en.beatMap) ∨
    linePixels en ≠ w ∨ lineChan en ≠ some c.val

/-- R12: the line of entry `en` is MALFORMED as channel `c` completes it. -/
abbrev MalformedLine (s : State) (c : Chan) (en : Entry) : Prop :=
  sequenceTestFails (s.chan c).capture.lastSeq (lineSeq en) = true ∨ OtherCause (heldW s) c en

/-- R156: with the levels `mf` an MF line of function HOLD for the strand is high. -/
abbrev StrandHeld (mf : BitVec 8) (s : State) (k : Strand) : Prop :=
  ∃ i : Fin 8, mf.getLsbD i.val = true ∧ (s.setup.geometry.bind fun g => g.mf[i.val]?) = some (32 + k.val)

/-- R15, row 5: a billet is open and the line's count is behind the last analysed count. -/
abbrev BehindLast (s : State) (c : Chan) (en : Entry) : Prop :=
  billetOpen s c = true ∧ 2147483648 ≤ (lineCount en - (s.chan c).record.lastAnalysed).toNat

/-- R15: what makes a completed line of each class, the first row that applies deciding. -/
abbrev ClassGiven (mf : BitVec 8) (s : State) (c : Chan) (en : Entry) : LineClass → Prop
  | .malformed => MalformedLine s c en
  | .noBillet => ¬MalformedLine s c en ∧ lineHot en = false
  | .lamp => ¬MalformedLine s c en ∧ lineHot en = true ∧ lineLamp en = true
  | .held =>
    ¬MalformedLine s c en ∧ lineHot en = true ∧ lineLamp en = false ∧ StrandHeld mf s (strandOf c)
  | .reverse =>
    ¬MalformedLine s c en ∧ lineHot en = true ∧ lineLamp en = false ∧ ¬StrandHeld mf s (strandOf c) ∧ BehindLast s c en
  | .toAnalyse =>
    ¬MalformedLine s c en ∧ lineHot en = true ∧ lineLamp en = false ∧ ¬StrandHeld mf s (strandOf c) ∧
      ¬BehindLast s c en

/-- R13: the gap of a completed line; a MALFORMED line has none. -/
def gapOf (s : State) (c : Chan) (en : Entry) : Nat :=
  if MalformedLine s c en then 0
  else
    match (s.chan c).capture.lastSeq with
    | none => 0
    | some q => (lineSeq en - q).toNat - 1 - (s.chan c).capture.unplaced

/-- R13: the last sequence after a completion. -/
def lastSeqAfter (s : State) (c : Chan) (en : Entry) : Option Word32 :=
  if MalformedLine s c en then (s.chan c).capture.lastSeq else some (lineSeq en)

/-- R13: the unplaced count after a completion: as it was for a failed sequence test, one more for another cause, 0 for a
well-placed line. -/
def unplacedAfter (s : State) (c : Chan) (en : Entry) : Nat :=
  if sequenceTestFails (s.chan c).capture.lastSeq (lineSeq en) = true then (s.chan c).capture.unplaced
  else if OtherCause (heldW s) c en then min ((s.chan c).capture.unplaced + 1) 65535 else 0

/-- R12, R13: the channel conditions that a completion sets: MALFORMED (bit 2) and LINE_LOSS (bit 0). -/
def completionBits (s : State) (c : Chan) (en : Entry) : BitVec 16 :=
  (if MalformedLine s c en then 4 else 0) ||| (if 1 ≤ gapOf s c en then 1 else 0)

/-- R31: the channel after a completion is reported: INSPECTING with a fresh stall timer and no abandon timer where a billet
is open, as it was otherwise. -/
def reported (now : Word32) (ch : Channel) : Channel :=
  if ch.record.state = .inspecting then
    { ch with record := { ch.record with stall := some { start := now, length := 10 * ch.params.chan.stallTens } } }
  else if ch.record.state = .stalled then
    { ch with record := { ch.record with
        state := .inspecting, abandon := none
        stall := some { start := now, length := 10 * ch.params.chan.stallTens } } }
  else ch

/-- R179, R85: the channel with its waiting set, if it has one, become current. -/
def switched (ch : Channel) : Channel :=
  match ch.waiting with
  | none => ch
  | some p =>
    { ch with
      params := p, waiting := none
      band := { ch.band with effPitch := effectivePitch p.chan ch.band.pitchRing } }

/-- R147, R150, R151, R146: a strand after the count of a counting line: the last count is the line's; the due entries fire,
the pulse started, or extended where the new end is later; a held-back MERGE takes effect as the queue is empty. -/
def strandAfter (now count : Word32) (k : StrandState) : StrandState :=
  let left := k.queue.filter fun m => decide (2147483648 ≤ (count - m.trigger).toNat)
  { k with
    lastCount := some count
    queue := left
    merge := if left = [] then k.mergeHeld.getD k.merge else k.merge
    mergeHeld := if left = [] then none else k.mergeHeld
    pulse :=
      if left = k.queue then k.pulse
      else
        match k.pulse with
        | none => some (now + BitVec.ofNat 32 k.pulseMs)
        | some e =>
          if 1 ≤ (now + BitVec.ofNat 32 k.pulseMs - e).toNat ∧ (now + BitVec.ofNat 32 k.pulseMs - e).toNat < 2147483648 then
            some (now + BitVec.ofNat 32 k.pulseMs)
          else some e }

/-- R9, R147: the strands after a completion: a line of a LIVE channel that is not MALFORMED counts for its strand. -/
def strandsCounted (s : State) (c : Chan) (en : Entry) : Bank4 StrandState :=
  if (s.chan c).record.mode = .live ∧ ¬MalformedLine s c en then
    s.strands.set (strandOf c) (strandAfter s.ms (lineCount en) (s.strands.get (strandOf c)))
  else s.strands

/-- R9: what a completion does whatever the line's class: the channels but `c`, the unrouted slot and the engine are as they
were; `c`'s latched set gains the completion's conditions, its MALFORMED counter one for a MALFORMED line. -/
abbrev CompletionOnly (s t : State) (c : Chan) (en : Entry) : Prop :=
  (∀ d, d ≠ c → t.chan d = s.chan d ∧ t.status.counters.get d = s.status.counters.get d ∧
      t.status.words.get d = s.status.words.get d) ∧
    t.unrouted = s.unrouted ∧ t.engine = s.engine ∧
      (t.status.words.get c).latched = (s.status.words.get c).latched ||| completionBits s c en ∧
        (t.status.counters.get c).malformed =
          if MalformedLine s c en then min ((s.status.counters.get c).malformed + 1) 65535
          else (s.status.counters.get c).malformed

/-- R16: what a line not to be analysed adds to the unseen run: its gap, one for a MALFORMED or LAMP line, then its
unseen-after. -/
def addedToRun (s : State) (c : Chan) (en : Entry) (k : LineClass) : Nat :=
  gapOf s c en + (if k = .malformed ∨ k = .lamp then 1 else 0) + en.unseenAfter

/-! ## Billet endings and teardowns (R21, R30, R104, R121) -/

/-- R118: some entry of the set's table matches the closure of a track. -/
def isClassed (w : Nat) (p : ParamSet) (cause : Cause) (x : Track) : Bool :=
  (p.profiles.get (tableIndex p.chan.profile)).toList.any (profileMatches w p.chan (trackClosure cause x))

/-- R121, R122: of the DEFECT record of a track closed with a cause, what the track and the billet give. -/
abbrev RecordOfTrack (w : Nat) (p : ParamSet) (cause : Cause) (c : Chan) (billet : Nat) (now : Word32) (x : Track)
    (d : DefectRecord) : Prop :=
  d.chan = c ∧ d.billet = billet ∧ d.closeTime = now ∧ d.firstPos = x.firstPos ∧ d.length = x.lastPos - x.firstPos ∧
    d.lo = x.overLo ∧ d.hi = x.overHi ∧ d.peak = x.peak ∧ d.area = x.area ∧ d.lines = x.lines ∧
      d.flags = defectFlags (trackClosure cause x) (isEdge w p.chan (trackClosure cause x))

/-- `d` increased `k` times by 1, each time saturating at 65535. -/
def raised (d k : Nat) : Nat := if k = 0 then d else min (d + k) 65535

/-- R30, R32, R34, R125: channel `c`'s billet ends as its set is `p` and its effective pitch `eff`: each open track that is
classed has its DEFECT record, in the order of the table, each other is counted as discarded, an open episode that was the
reference is counted as on pitch, and the BILLET record follows. `r` is the ring writer but for its queue. -/
abbrev BilletEnded (p : ParamSet) (eff : Nat) (cause : Cause) (ending : BilletEnd) (c : Chan) (s t : State) (r : Ring) :
    Prop :=
  ∃ ds : List DefectRecord,
    List.Forall₂ (RecordOfTrack (heldW s) p cause c (s.chan c).record.billet s.ms)
      ((s.chan c).tracks.filter (isClassed (heldW s) p cause)) ds ∧
    (ds.map DefectRecord.serial =
      (List.range ds.length).map fun i => (s.chan c).record.serial + 1 + BitVec.ofNat 32 i) ∧
    (t.chan c).record.serial = (s.chan c).record.serial + BitVec.ofNat 32 ds.length ∧
    (t.chan c).record.tallies =
      { (s.chan c).record.tallies with
        discarded := raised (s.chan c).record.tallies.discarded ((s.chan c).tracks.length - ds.length)
        onPitch :=
          if (s.chan c).band.episode.state = .absent then (s.chan c).record.tallies.onPitch
          else min ((s.chan c).record.tallies.onPitch + 1) 65535 } ∧
    t.ring =
      { r with
        queue := s.ring.queue ++ ds.map Record.defect ++
          [.billet
            { chan := c
              ending := ending
              billet := (s.chan c).record.billet
              length := position (s.chan c).record.lastAnalysed (s.chan c).record.headCount p.strand.scale
              tallies := (t.chan c).record.tallies
              defects := min (t.chan c).record.serial.toNat 65535
              effPitch := eff
              closeTime := s.ms }] }

/-- What `BilletEnded` asks for: the record queue has room for a record of each track and the BILLET record, and an open episode
is the billet's reference (R78). -/
abbrev EndsInTheQueue (s : State) (c : Chan) : Prop :=
  ((s.chan c).band.episode.state = .absent ∨ (s.chan c).band.prevCentre = none) ∧
    s.ring.queue.length + (s.chan c).tracks.length < 64

/-- R131: the ring writer after a record produced at millisecond `now` with 64 queued: lost, its loss episode opened or
extended. -/
def lostRing (now : Word32) (r : Ring) : Ring :=
  { r with
    loss := some
      (match r.loss with
      | none => { count := 1, first := now, last := now }
      | some l => { count := min (l.count + 1) 4294967295, first := l.first, last := now }) }

/-- R104: what the closure of a track hands the classifier. -/
def handedTrack (cause : Cause) (x : Track) : Closure :=
  { band := false, trackId := some x.id, cause := cause, long := false, firstCount := x.firstCount, firstPos := x.firstPos
    lastPos := x.lastPos, lo := x.overLo, hi := x.overHi, peak := x.peak, area := x.area, sum := some x.sum
    lines := x.lines, inMark := x.inMark, joined := x.joined, clutterSeen := x.clutterSeen }

/-- R99, R105, R111: tracks handed to the classifier with a cause, one after the other. -/
def handedOver (c : Chan) (set : ParamSet) (cause : Cause) (xs : List Track) (s : State) : State :=
  xs.foldl (fun u x => classify c set (handedTrack cause x) u) s

/-- R153, R146: from `s` to `t` the marks of the channels `torn` leave the queues of their strands, each counted as discarded;
the other entries, the last count and the pulse are kept, and a held-back MERGE takes effect as the queue is empty. -/
abbrev MarksRemoved (torn : Chan → Bool) (s t : State) : Prop :=
  (∀ (k : Strand) (left : List Mark),
      (left = (s.strands.get k).queue.filter fun m => !(torn m.chan && decide (strandOf m.chan = k))) →
        t.strands.get k =
          if ∃ c : Chan, torn c = true ∧ strandOf c = k then
            { s.strands.get k with
              queue := left
              merge :=
                if left = [] then (s.strands.get k).mergeHeld.getD (s.strands.get k).merge else (s.strands.get k).merge
              mergeHeld := if left = [] then none else (s.strands.get k).mergeHeld }
          else s.strands.get k) ∧
    t.status.partCounters.marksDiscarded =
      if ∃ c : Chan, torn c = true then
        min
          (s.status.partCounters.marksDiscarded +
            (allStrands.map fun k =>
              ((s.strands.get k).queue.filter fun m => torn m.chan && decide (strandOf m.chan = k)).length).sum)
          65535
      else s.status.partCounters.marksDiscarded

/-- R34, R35: channel `c` of `s` is torn down into state `into`. -/
abbrev TornDown (into : ChanState) (c : Chan) (s t : State) : Prop :=
  (t.chan c).record.state = into ∧ (t.chan c).record.mode = (s.chan c).record.mode ∧
    (t.chan c).record.billet = (s.chan c).record.billet ∧ (t.chan c).record.stall = none ∧
    (t.chan c).record.abandon = none ∧ (t.chan c).record.pendingCmd = none ∧
    (t.chan c).record.abandonDue = false ∧ (t.chan c).tracks = [] ∧
    (t.chan c).band.episode.state = .absent ∧ (t.chan c).capture = Capture.empty ∧
    (t.chan c).held = [] ∧ (t.chan c).background = (s.chan c).background ∧
    (t.chan c).params = (s.chan c).params ∧
    (∀ m ∈ (t.strands.get (strandOf c)).queue, m.chan ≠ c) ∧
    ∀ h ∈ (s.chan c).held, ∀ x ∈ t.path.list, x.id = h.txn → x.held = false

/-- R36: a channel that RESTART has returned to WAITING. -/
def restarted (ch : Channel) : Channel :=
  { ch with
    capture := Capture.empty
    held := []
    background := []
    tracks := []
    band :=
      { episode := Episode.none, prevCentre := none, pitchRing := []
        effPitch := effectivePitch ch.params.chan [] }
    record := { ch.record with
      state := .waiting, stall := none, abandon := none, abandonDue := false, pendingCmd := none
      warmupLeft := 0, serial := 0, tallies := Tallies.zero } }

/-- R21: of the system-side list as it stood, the transactions whose trailers a torn-down channel held are marked not held
with the trailer beat rewritten to ABORTED (code 12); those of no such channel are as they were. (Of a transaction held twice
over, which no reachable state has, it speaks where the beat is the same.) -/
abbrev TrailersAborted (torn : Chan → Prop) (s t : State) : Prop :=
  ∀ (i : Nat) (x : SysTxn), s.path.list[i]? = some x →
    ((∀ c, torn c → ∀ h ∈ (s.chan c).held, h.txn ≠ x.id) → t.path.list[i]? = some x) ∧
      ∀ c, torn c → ∀ h ∈ (s.chan c).held, h.txn = x.id →
        (∀ d, torn d → ∀ k ∈ (s.chan d).held, k.txn = x.id → k.beat = h.beat) →
          t.path.list[i]? = some { x with held := false, body := rewriteBody h.beat 12 x.body }

/-- R182: from `s` to `t` every block but the ring writer takes its RESET_PART values, and the ring writer stops. -/
abbrev BlocksReset (s t : State) : Prop :=
  (∀ c : Chan,
    t.chan c =
      { Channel.initial with
        params := (s.chan c).params
        band :=
          { episode := Episode.none, prevCentre := none, pitchRing := []
            effPitch := effectivePitch (s.chan c).params.chan [] } }) ∧
  (∀ (c : Chan) (h : HeldTrailer), h ∈ (s.chan c).held → ∀ x ∈ t.path.list, x.id = h.txn → x.held = false) ∧
  TrailersAborted (fun _ => True) s t ∧
  t.unrouted = none ∧ t.engine = { analysis := none, lastServed := 15 } ∧
  (∀ k : Strand,
    (t.strands.get k).queue = [] ∧ (t.strands.get k).lastCount = none ∧ (t.strands.get k).pulse = none ∧
      (t.strands.get k).merge = ((s.strands.get k).mergeHeld.getD (s.strands.get k).merge) ∧
        (t.strands.get k).pulseMs = (s.strands.get k).pulseMs ∧
          (t.strands.get k).lifeS = (s.strands.get k).lifeS) ∧
  t.ring = { s.ring with resetWait := true, age := none } ∧ t.path.lastSide = .system ∧
  t.setup.geometry = s.setup.geometry ∧
  (∀ c : Chan, (t.status.words.get c).latched = 0 ∧ t.status.counters.get c = ChanCounters.zero) ∧
  t.status.partCounters = PartCounters.zero ∧
  t.status.part.latched = (if ringBlocked s.ring = true then 2 else 0) ∧
  t.status.snapshot = s.status.snapshot

/-- The state of an analysis of channel `c`'s line of entry `e` with nothing else waiting for its completion: no command in
progress or pending, no billet ending put off, no line queued behind. -/
def completingAlone (c : Chan) (e : Fin 2) (s : State) : State :=
  setChan c
    { s.chan c with
      record := { (s.chan c).record with pendingCmd := none, abandonDue := false }
      capture := { (s.chan c).capture with queue := [e] } }
    { s with setup := { s.setup with command := .ready } }

/-- R174, R198: the command status word with which command `r` ends DONE. -/
def doneWord (r : Running) : List Byte :=
  [r.tag, r.code, 1,
    (if r.isPartial = true then 1 else 0) + (if 1 ≤ r.clamped then 2 else 0) + (if r.geometryHeld = true then 4 else 0),
    0, 0, BitVec.ofNat 8 (min r.clamped 65535), BitVec.ofNat 8 (min r.clamped 65535 / 256)]

/-- R33, R34, R36: from `s` to `t` channel `c`, which watches a window, takes the command `k`; START and START_REPLAY do not suit
its state. -/
abbrev TakenByWatching (k : ChanCommand) (c : Chan) (s t : State) : Prop :=
  match k with
  | .start => t.chan c = s.chan c
  | .startReplay => t.chan c = s.chan c
  | .stop => TornDown .off c s t
  | .isolate => TornDown .passOnly c s t
  | .restart => t.chan c = restarted (s.chan c) ∧ t.status.counters.get c = ChanCounters.zero

/-! ## The figures of a line (R29, R51 to R67), restated column by column -/

/-- R51: the interior columns, left to right. -/
def interiorColumns (w : Nat) (q : ChanParams) : List Nat := (List.range (w - q.mLo - q.mHi)).map fun i => q.mLo + i

/-- R52: the unsaturated interior columns. -/
def openColumns (w : Nat) (q : ChanParams) (pix : Nat → Nat) : List Nat :=
  (interiorColumns w q).filter fun x => decide (pix x < q.satLevel)

/-- R52: the line is obscured: s × 256 ≥ OBF × n. -/
abbrev ObscuredLine (w : Nat) (q : ChanParams) (pix : Nat → Nat) : Prop :=
  q.obf * (interiorColumns w q).length ≤
    ((interiorColumns w q).filter fun x => decide (q.satLevel ≤ pix x)).length * 256

/-- R54: the residual of a column, with `bg` the background pairs. -/
def residualAt (pix : Nat → Nat) (bg : Store (Nat × Nat)) (x : Nat) : Int :=
  ((readStore (0, 0) bg x).1 : Int) - 256 * (pix x : Int)

/-- R55, R56: max(DFLOOR, floor(K × M / 4)), with M the floored mean of the absolute residuals. -/
def rawThresholdOf (w : Nat) (q : ChanParams) (pix : Nat → Nat) (bg : Store (Nat × Nat)) : Nat :=
  max q.dfloor
    (q.k * (((openColumns w q pix).map fun x => (residualAt pix bg x).natAbs).sum / (openColumns w q pix).length) / 4)

/-- R56: the threshold T. -/
def thresholdOf (w : Nat) (q : ChanParams) (pix : Nat → Nat) (bg : Store (Nat × Nat)) : Nat :=
  min (rawThresholdOf w q pix bg) 65535

/-- R58: the dark columns. -/
def darkColumns (w : Nat) (q : ChanParams) (pix : Nat → Nat) (bg : Store (Nat × Nat)) : List Nat :=
  (openColumns w q pix).filter fun x => decide ((thresholdOf w q pix bg : Int) ≤ residualAt pix bg x)

/-- R59: the pair of a column whose background moves. -/
def movedPair (q : ChanParams) (pix : Nat → Nat) (bg : Store (Nat × Nat)) (x : Nat) : Nat × Nat :=
  (((((readStore (0, 0) bg x).1 : Int) +
      Int.fdiv (256 * (pix x : Int) - ((readStore (0, 0) bg x).1 : Int)) ((2 : Int) ^ q.a))).toNat, 0)

/-- R62, R63: the runs of the dark columns that pass the width test, left to right (how columns join into runs is
RunsPartitionTheDarkColumns's). -/
def wideRunsOf (w : Nat) (q : ChanParams) (pix : Nat → Nat) (bg : Store (Nat × Nat)) : List Run :=
  (runsOfDark q.br
      ((darkColumns w q pix bg).map fun x =>
        { index := x, p := pix x, b := (readStore (0, 0) bg x).1, stuck := (readStore (0, 0) bg x).2 })).filter
    fun r => decide (q.rw ≤ r.hi - r.lo + 1)

/-- R67: the dark summary of a band line: its lowest and highest dark column, the greatest residual, D. -/
abbrev SummaryOf (w : Nat) (q : ChanParams) (pix : Nat → Nat) (bg : Store (Nat × Nat)) (d : DarkSummary) : Prop :=
  d.lo ∈ darkColumns w q pix bg ∧ d.hi ∈ darkColumns w q pix bg ∧
    (∀ x ∈ darkColumns w q pix bg, d.lo ≤ x ∧ x ≤ d.hi ∧ residualAt pix bg x ≤ (d.peak : Int)) ∧
      (∃ x ∈ darkColumns w q pix bg, residualAt pix bg x = (d.peak : Int)) ∧ d.dark = (darkColumns w q pix bg).length

/-- R29: the last analysed count after a line of count `count`: never moved backwards. -/
def lastAfter (last count : Word32) : Word32 := if (count - last).toNat < 2147483648 then count else last

/-! ## Episodes (R70 to R85), restated -/

/-- R71: the episode that a band line opens. -/
def firstEpisode (count : Word32) (pos : Nat) (d : DarkSummary) : Episode :=
  { state := .isOpen, firstCount := count, firstPos := pos, lastPos := pos, hullLo := d.lo, hullHi := d.hi
    peak := d.peak, area := min d.dark 65535, lines := 1 }

/-- R72: the episode that a band line has extended. -/
def grownEpisode (pos : Nat) (d : DarkSummary) (e : Episode) : Episode :=
  { state := .isOpen, firstCount := e.firstCount, firstPos := e.firstPos, lastPos := max e.lastPos pos
    hullLo := min e.hullLo d.lo, hullHi := max e.hullHi d.hi, peak := max e.peak d.peak
    area := min (e.area + d.dark) 65535, lines := e.lines + 1 }

/-- R82: the transverse candidate of an episode. -/
def candidateOf (e : Episode) (cause : Cause) (long : Bool) : Closure :=
  { band := true, trackId := none, cause := cause, long := long, firstCount := e.firstCount, firstPos := e.firstPos
    lastPos := e.lastPos, lo := e.hullLo, hi := e.hullHi, peak := e.peak, area := e.area, sum := none, lines := e.lines
    inMark := false, joined := false, clutterSeen := false }

/-- R79: n, the whole number of pitches that a spacing comes nearest to. -/
def nearestMultiple (spacing : Int) (pitch : Nat) : Int := (spacing + ((pitch / 2 : Nat) : Int)) / (pitch : Int)

/-- R79: a spacing is on pitch. -/
abbrev IsOnPitch (spacing : Int) (pitch tol : Nat) : Prop :=
  1 ≤ nearestMultiple spacing pitch ∧ nearestMultiple spacing pitch ≤ 4 ∧
    (spacing - nearestMultiple spacing pitch * (pitch : Int)).natAbs ≤ tol

/-- R83: the pitch ring with a sample more, the oldest of 8 removed for it. -/
def ringWith (x : Nat) (ring : List Nat) : List Nat := (if 8 ≤ ring.length then ring.tail else ring) ++ [x]

/-- R77, R79: the centre of an episode, and its signed spacing from a previous centre. -/
def centreSpacing (e : Episode) (prev : Nat) : Int := (((e.firstPos + e.lastPos) / 2 : Nat) : Int) - (prev : Int)

/-- R81: the state after an episode that is no mark of the pitch: ABSENT, counted and handed to the classifier. -/
def afterCandidate (c : Chan) (set : ParamSet) (e : Episode) (cause : Cause) (long : Bool) (s : State) : State :=
  classify c set (candidateOf e cause long)
    (setChan c
      { s.chan c with
        band := { (s.chan c).band with episode := Episode.none }
        record := { (s.chan c).record with
          tallies := { (s.chan c).record.tallies with
            transverse := min ((s.chan c).record.tallies.transverse + 1) 65535 } } }
      s)

/-- R78, R80, R83: channel `ch` after an episode of centre `centre` accepted as a mark, with the pitch ring `ring` and the
effective pitch `eff` that it leaves. -/
def afterMark (centre : Nat) (ring : List Nat) (eff : Nat) (ch : Channel) : Channel :=
  { ch with
    band := { episode := Episode.none, prevCentre := some centre, pitchRing := ring, effPitch := eff }
    record := { ch.record with
      tallies := { ch.record.tallies with onPitch := min (ch.record.tallies.onPitch + 1) 65535 } } }

/-- R77 to R81: the state after channel `c`'s episode `e` has closed with a cause and been tested. -/
def afterTest (c : Chan) (set : ParamSet) (e : Episode) (cause : Cause) (s : State) : State :=
  let ch := s.chan c
  match ch.band.prevCentre with
  | none => setChan c (afterMark ((e.firstPos + e.lastPos) / 2) ch.band.pitchRing ch.band.effPitch ch) s
  | some prev =>
    let x := centreSpacing e prev
    let ring := ringWith (x / nearestMultiple x ch.band.effPitch).toNat ch.band.pitchRing
    if IsOnPitch x ch.band.effPitch set.chan.pTol then
      setChan c (afterMark ((e.firstPos + e.lastPos) / 2) ring (effectivePitch ch.params.chan ring) ch) s
    else afterCandidate c set e cause false s

/-- Channel `c` with the episode `e`, all else as it was. -/
def withEpisode (c : Chan) (e : Episode) (s : State) : State :=
  setChan c { s.chan c with band := { (s.chan c).band with episode := e } } s

/-- R71 to R74: the state after an ANALYSED line's band outcome; `d` is a band line's dark summary. -/
def afterBandOutcome (c : Chan) (set : ParamSet) (count : Word32) (pos : Nat) (d : Option DarkSummary) (s : State) :
    State :=
  let e := (s.chan c).band.episode
  match d with
  | some d =>
    if e.state = .absent then withEpisode c (firstEpisode count pos d) s
    else if set.chan.bandMax ≤ e.lines + 1 then afterCandidate c set (grownEpisode pos d e) .gap true s
    else withEpisode c (grownEpisode pos d e) s
  | none =>
    match e.state with
    | .absent => s
    | .isOpen => withEpisode c { e with state := .ending } s
    | .ending => afterTest c set e .gap s

/-! ## The track table (R90 to R104), restated -/

/-- R92: the track's current span overlaps the run widened by LS. -/
abbrev SpanMeets (ls : Nat) (r : Run) (t : Track) : Prop :=
  (t.spanLo : Int) ≤ (r.hi : Int) + ls ∧ (r.lo : Int) - ls ≤ (t.spanHi : Int)

/-- R93: of the tracks as they stood, `t` takes the run: a candidate, and none is older, or as old with a smaller ID. -/
abbrev TakesRun (l : LineRuns) (old : List Track) (r : Run) (t : Track) : Prop :=
  SpanMeets l.ls r t ∧
    ∀ u ∈ old, SpanMeets l.ls r u →
      (l.seq - u.firstSeq).toNat ≤ (l.seq - t.firstSeq).toNat ∧
        ((l.seq - u.firstSeq).toNat = (l.seq - t.firstSeq).toNat → t.id ≤ u.id)

/-- R93: the runs of the line that a track takes. -/
def runsTaken (l : LineRuns) (old : List Track) (t : Track) : List Run :=
  l.runs.filter fun r => decide (TakesRun l old r t)

/-- R94 to R98, R102: an open track after the line's runs are matched and the others aged. -/
def trackAfter (l : LineRuns) (old : List Track) (t : Track) : Track :=
  let rs := runsTaken l old t
  { t with
    lastPos := if rs = [] then t.lastPos else max t.lastPos l.pos
    spanLo := ((rs.map Run.lo).min?).getD t.spanLo
    spanHi := ((rs.map Run.hi).max?).getD t.spanHi
    overLo := (rs.map Run.lo).foldl min t.overLo
    overHi := (rs.map Run.hi).foldl max t.overHi
    area := if rs = [] then t.area else min (t.area + (rs.map Run.area).sum) 65535
    peak := (rs.map Run.peak).foldl max t.peak
    sum := if rs = [] then t.sum else min (t.sum + (rs.map Run.sum).sum) 4294967295
    lines := if rs = [] then t.lines else min (t.lines + 1) 65535
    gap := if rs = [] then t.gap + 1 else 0
    inMark := t.inMark || rs.any Run.inMark
    joined := t.joined || l.runs.any fun r => decide (SpanMeets l.ls r t ∧ ¬TakesRun l old r t)
    clutterSeen := t.clutterSeen || l.clutter }

/-- R98, R99: the tracks that a line's aging closes, in the order of the table. -/
def agedTracks (l : LineRuns) (old : List Track) : List Track :=
  (old.map (trackAfter l old)).filter fun t => decide (l.g < t.gap)

/-- R98: the tracks that stay open. -/
def keptTracks (l : LineRuns) (old : List Track) : List Track :=
  (old.map (trackAfter l old)).filter fun t => decide (t.gap ≤ l.g)

/-- R97: the runs without a candidate, left to right. -/
def newRuns (l : LineRuns) (old : List Track) : List Run :=
  l.runs.filter fun r => decide (∀ t ∈ old, ¬SpanMeets l.ls r t)

/-- R99, R100: the IDs of the entries FREE after aging, rising. -/
def freeIds (l : LineRuns) (old : List Track) : List Nat :=
  (List.range 32).filter fun i => decide (∀ t ∈ keptTracks l old, t.id ≠ i)

/-- R100: the track that a run opens in entry `i`. -/
def trackOpened (l : LineRuns) (i : Nat) (r : Run) : Track :=
  { id := i, firstSeq := l.seq, firstCount := l.count, firstPos := l.pos, lastPos := l.pos, spanLo := r.lo
    spanHi := r.hi, overLo := r.lo, overHi := r.hi, area := min r.area 65535, peak := r.peak, sum := r.sum, lines := 1
    gap := 0, inMark := r.inMark, joined := false, clutterSeen := l.clutter }

/-- R98 to R101: the open tracks after a line, in rising ID: those kept, and those opened, left to right, in the lowest FREE
entries. -/
def tracksAfter (l : LineRuns) (old : List Track) : List Track :=
  (List.range 32).filterMap fun i =>
    (keptTracks l old ++ List.zipWith (trackOpened l) (freeIds l old) (newRuns l old)).find? fun t => decide (t.id = i)

/-- R101: how many runs a line loses for want of a FREE entry. -/
def runsLost (l : LineRuns) (old : List Track) : Nat := (newRuns l old).length - (freeIds l old).length

/-! ## Ranges of parameters (R177) -/

/-- R177: `new` is `old` brought into the range `lo` to `hi`: kept where it lies within, the nearer end otherwise. -/
abbrev BroughtInto (lo hi old new : Nat) : Prop :=
  (lo ≤ old → old ≤ hi → new = old) ∧ (old < lo → new = lo) ∧ (lo ≤ old → hi < old → new = hi)

/-! ## What a claim sees of the memory path -/

/-- R159, R161: the state after a write of `beats` at `addr` that is listed, not held, and does nothing else; the levels `mf`
stand on the MF lines (log 9). -/
def listedWrite (mf : BitVec 8) (addr : BitVec 40) (beats : List Beat) (s : State) : State :=
  { s with
    mfIn := mf
    path := { s.path with
      nextId := s.path.nextId + 1
      list := s.path.list ++
        [{ id := s.path.nextId, addr := addr.toNat, body := .write beats, held := false, watch := .all }] } }

/-- R165, R166: the write of the word at `offset` of the setup block waits, queued or deferred, with `data` as its latest
content. -/
def WordOffered (offset : Nat) (data : List Byte) (s : State) : Prop :=
  (∃ e ∈ s.path.queue,
      e.kind ≠ .record ∧ e.addr = setupBase s.setup.strap + offset ∧ e.data = data) ∨
    (setupBase s.setup.strap + offset, data) ∈ s.path.deferred

/-- R198: the command status word. -/
def statusWord (tag code result flags check : Byte) (clamped : Nat) : List Byte :=
  [tag, code, result, flags, check, 0, BitVec.ofNat 8 clamped, BitVec.ofNat 8 (clamped / 256)]

/-- The channel, setup, ring, strand and engine state of two states agree: what a refused command leaves as it was. -/
abbrev SameBlocks (s t : State) : Prop :=
  t.chans = s.chans ∧ t.unrouted = s.unrouted ∧ t.engine = s.engine ∧ t.ring = s.ring ∧ t.strands = s.strands ∧
    t.setup.geometry = s.setup.geometry ∧ t.setup.strap = s.setup.strap ∧ t.status = s.status

/-- R15, R19: the code of the verdict that a class gives at once; none for a line to be analysed. -/
def atOnceCode : LineClass → Option Nat
  | .malformed => some 7
  | .noBillet => some 5
  | .lamp => some 9
  | .held => some 10
  | .reverse => some 11
  | .toAnalyse => none

/-- R190, R198: the start-up record, its bytes written out. -/
def startUpBytes (cause : Byte) (strap : BitVec 4) (resets : Nat) : List Byte :=
  [cause, BitVec.ofNat 8 strap.toNat, BitVec.ofNat 8 resets, BitVec.ofNat 8 (resets / 256), 0x16, 0x0D, Config.revision, 0,
    16, 0, 0, 4, 32, 64, 8] ++ zeros 17

end Sys2Proof.Safety
end

