-- ==== Sys2Proof/Certificates/Slice0/Obligations.lean ====
section
/-! DEFINITION. The statements for the provers. -/

open Sys2Proof Sys2Proof.Machine Sys2Proof.Safety

/-! ## The step -/

/-- A step runs the command at the front of the queue, with the queue's rest. On an empty queue one microsecond passes and
nothing else (the model's choice, log 1; the counts are R191's). -/
def Obligations.StepRunsFrontCommand : Prop :=
  (∀ (i : Instr) (rest : List Instr) (s : State),
      s.pending = i :: rest → step s = exec i { s with pending := rest }) ∧
    ∀ s : State, s.pending = [] →
      ∃ t, step s = .next t ∧ t.us = s.us + 1 ∧
        (s.usInMs < 999 → t.ms = s.ms ∧ t.usInMs = s.usInMs + 1) ∧ (999 ≤ s.usInMs → t.ms = s.ms + 1 ∧ t.usInMs = 0) ∧
          { t with us := s.us, ms := s.ms, usInMs := s.usInMs } = s

/-- No command's effect touches the queue of commands; only POWER_ON touches the two counts (R191), only POWER_ON and
RESET_LINE_RELEASE the straps and, once held, the geometry (R171, R178), only those and RESET_LINE_ASSERT the reset line,
only the commands that carry them the levels of the MF lines. The queue of commands is the model's own, which POWER_ON keeps
too (logs 8 and 29); that the MF levels stand between the commands that carry them (log 9) and that POWER_ON leaves the reset
line not asserted (log 43) are the model's choices. -/
def Obligations.CommandsKeepQueueClockAndPins : Prop :=
  ∀ (i : Instr) (s t : State), exec i s = .next t →
    t.pending = s.pending ∧
      ((∀ b, i ≠ .powerOn b) → t.us = s.us ∧ t.ms = s.ms ∧ t.usInMs = s.usInMs) ∧
        ((∀ b, i ≠ .powerOn b) → (∀ b, i ≠ .resetLineRelease b) →
          t.setup.strap = s.setup.strap ∧
            (∀ g, s.setup.geometry = some g → t.setup.geometry = some g) ∧
              (i ≠ .resetLineAssert → t.resetLine = s.resetLine)) ∧
          ((∀ mf a bs, i ≠ .systemWrite mf a bs) → (∀ mf, i ≠ .memorySideGrant mf) → t.mfIn = s.mfIn)

/-! ## Reset and the invariants -/

/-- What the part holds after power-on, by the rules that give a reset value: channel records, capture, trailers,
backgrounds, tracks, band trackers, parameters, engine, ring writer, mark scheduler, memory path, setup unit, status unit.
(What a FREE capture entry holds beside the values R4 names is log 37's, and that the reset line is not asserted log 43's: the
model's.) -/
def Obligations.ResetStateHoldsTheResetValues : Prop :=
  State.reset.us = 0 ∧ State.reset.ms = 0 ∧
    (∀ c : Chan,
      (State.reset.chan c).record.state = .off ∧ (State.reset.chan c).record.mode = .live ∧
        (State.reset.chan c).record.billet = 0 ∧ (State.reset.chan c).record.serial = 0 ∧
          (State.reset.chan c).record.headCount = 0 ∧ (State.reset.chan c).record.lastAnalysed = 0 ∧
          (State.reset.chan c).record.warmupLeft = 0 ∧
          (State.reset.chan c).record.tallies = { analysed := 0, unseen := 0, discarded := 0, onPitch := 0, transverse := 0 } ∧
          (State.reset.chan c).record.stall = none ∧ (State.reset.chan c).record.abandon = none ∧
            (State.reset.chan c).record.pendingCmd = none ∧ (State.reset.chan c).record.abandonDue = false ∧
              (State.reset.chan c).capture = Capture.empty ∧ (State.reset.chan c).waiting = none ∧
              (State.reset.chan c).held = [] ∧ (State.reset.chan c).background = [] ∧
                (State.reset.chan c).tracks = [] ∧
                (State.reset.chan c).band.episode =
                  { state := .absent, firstCount := 0, firstPos := 0, lastPos := 0, hullLo := 0, hullHi := 0, peak := 0
                    area := 0, lines := 0 } ∧
                  (State.reset.chan c).band.prevCentre = none ∧ (State.reset.chan c).band.pitchRing = [] ∧
                    (State.reset.chan c).params = ParamSet.zero ∧
                      (State.reset.status.words.get c).latched = 0 ∧
                        (State.reset.status.words.get c).published = 0 ∧
                          State.reset.status.counters.get c = ChanCounters.zero) ∧
      State.reset.unrouted = none ∧ State.reset.resetLine = false ∧
      State.reset.engine = { analysis := none, lastServed := 15 } ∧ State.reset.ring.queue = [] ∧
        State.reset.ring.loss = none ∧ State.reset.ring.slots = [] ∧ State.reset.ring.fill = .none ∧
          State.reset.ring.outstanding = 0 ∧ State.reset.ring.fillers = 0 ∧ State.reset.ring.age = none ∧
          State.reset.ring.flushPending = false ∧ State.reset.ring.index = 0 ∧
            (∀ k : Strand,
              (State.reset.strands.get k).queue = [] ∧ (State.reset.strands.get k).lastCount = none ∧
                (State.reset.strands.get k).pulse = none) ∧
              State.reset.path.list = [] ∧ State.reset.path.deferred = [] ∧ State.reset.path.partOut = [] ∧
                State.reset.path.lastSide = .system ∧ State.reset.setup.staged = [] ∧ State.reset.setup.geometry = none ∧
                  State.reset.setup.command = .ready ∧ State.reset.status.part.latched = 0 ∧
                    State.reset.status.part.published = 0 ∧ State.reset.status.maskChan = 0 ∧
                    State.reset.status.maskPart = 0 ∧
                    State.reset.status.partCounters = PartCounters.zero ∧ State.reset.status.summary = 0 ∧
                      State.reset.status.snapshot = none ∧ State.reset.status.resets = 0

/-- The invariants below hold at reset. -/
def Obligations.InvariantsHoldAtReset : Prop :=
  OutgoingSound State.reset.path ∧ RecordsSound State.reset.ring ∧
    (∀ k : Strand, MarksSound (State.reset.strands.get k)) ∧ (∀ c : Chan, TracksSound (State.reset.chan c).tracks) ∧
      (∀ c : Chan, PitchSound (State.reset.chan c)) ∧ AttentionSound State.reset.status ∧ StoresCanonical State.reset ∧
        QuietUnderReset State.reset

/-- Every step keeps the outgoing write queue sound. -/
def Obligations.StepsKeepTheOutgoingQueueSound : Prop :=
  ∀ s t : State, OutgoingSound s.path → step s = .next t → OutgoingSound t.path

/-- Every step keeps the record queue and its loss episode sound. -/
def Obligations.StepsKeepTheRecordQueueSound : Prop :=
  ∀ s t : State, RecordsSound s.ring → step s = .next t → RecordsSound t.ring

/-- Every step keeps the mark queues sound. -/
def Obligations.StepsKeepTheMarkQueuesSound : Prop :=
  ∀ s t : State, (∀ k : Strand, MarksSound (s.strands.get k)) → step s = .next t →
    ∀ k : Strand, MarksSound (t.strands.get k)

/-- Every step keeps the open-track tables sound. -/
def Obligations.StepsKeepTheTrackTablesSound : Prop :=
  ∀ s t : State, (∀ c : Chan, TracksSound (s.chan c).tracks) → step s = .next t →
    ∀ c : Chan, TracksSound (t.chan c).tracks

/-- Every step keeps each channel's effective pitch what R84 makes of its ring and its active parameters. -/
def Obligations.StepsKeepTheEffectivePitch : Prop :=
  ∀ s t : State, (∀ c : Chan, PitchSound (s.chan c)) → step s = .next t → ∀ c : Chan, PitchSound (t.chan c)

/-- Every step keeps the attention summary, and so the ATTN line, in step with the latched sets and the mask. -/
def Obligations.StepsKeepTheAttentionSummary : Prop :=
  ∀ s t : State, AttentionSound s.status → step s = .next t → AttentionSound t.status

/-- Every step keeps the sparse stores in their canonical form. -/
def Obligations.StepsKeepTheStoresCanonical : Prop :=
  ∀ s t : State, StoresCanonical s → step s = .next t → StoresCanonical t

/-- Every step keeps the part quiet while the reset line is asserted. That the transactions listed and outstanding are
classed against nothing then is log 13's, that the snapshot timer stands still log 14's (both DEDUCED), and what a FREE entry
holds beside R4's values log 37's: the model's. -/
def Obligations.StepsKeepThePartQuietUnderReset : Prop :=
  ∀ s t : State, QuietUnderReset s → step s = .next t → QuietUnderReset t

/-! ## The resets -/

/-- POWER_ON: every block at its power-on values, the straps read, and the start-up record with cause POWER_ON and the 17
empty condition words, in ascending address order, offered to the empty queue (their order is log 10's). That the system
side's waiting and outstanding transactions are gone is the model's choice (log 29), and so are what a FREE entry holds beside
R4's values (log 37) and that the reset line is not asserted then (log 43). -/
def Obligations.PowerOnCompletes : Prop :=
  ∀ (n : BitVec 4) (s : State),
    ∃ t, exec (.powerOn n) s = .next t ∧ t.us = 0 ∧ t.ms = 0 ∧ t.usInMs = 0 ∧ t.resetLine = false ∧
      (∀ c : Chan, t.chan c = Channel.initial) ∧ t.unrouted = none ∧
        t.engine = { analysis := none, lastServed := 15 } ∧ t.ring = Ring.initial ∧
          (∀ k : Strand, t.strands.get k = StrandState.initial) ∧
            t.setup = { strap := n, staged := [], geometry := none, command := .ready } ∧ t.status = Status.initial ∧
              t.path.list = [] ∧ t.path.port = [] ∧ t.path.deferred = [] ∧ t.path.sysOut = [] ∧ t.path.partOut = [] ∧
                t.path.lastSide = .system ∧
                  t.path.queue =
                    { kind := .word, addr := 134217728 * n.toNat + 0x2100, data := startUpBytes 1 n 0 } ::
                      (List.range 17).map fun i =>
                        { kind := .word, addr := 134217728 * n.toNat + (0x2040 + 8 * i), data := zeros 8 }

/-- RESET_LINE_ASSERT: the part becomes quiet; held trailers are released unmodified in their places; the time runs on. The
straps, the staged copy and the geometry stand until the release (log 14), listed and outstanding transactions lose their
classing (log 13), a trailer rewritten before keeps its verdict (log 38), a FREE entry holds what log 37 says: the model's.
Asserted already, nothing happens (log 5). -/
def Obligations.ResetLineAssertCompletes : Prop :=
  ∀ s : State,
    (s.resetLine = true → exec .resetLineAssert s = .next s) ∧ (s.resetLine = false →
    ∃ t, exec .resetLineAssert s = .next t ∧ t.resetLine = true ∧ Quiet t ∧
      (t.path.list.map fun x => (x.id, x.addr, x.body)) = (s.path.list.map fun x => (x.id, x.addr, x.body)) ∧
        t.path.sysOut.map SysOut.id = s.path.sysOut.map SysOut.id ∧
          t.path.partOut.map PartOut.id = s.path.partOut.map PartOut.id ∧ t.path.lastSide = .system ∧
            t.engine.lastServed = 15 ∧ (∀ c : Chan, t.status.counters.get c = ChanCounters.zero) ∧
              t.status.partCounters = PartCounters.zero ∧ t.setup.strap = s.setup.strap ∧
                t.setup.staged = s.setup.staged ∧ t.setup.geometry = s.setup.geometry ∧ t.us = s.us ∧ t.ms = s.ms)

/-- RESET_LINE_RELEASE: the straps are read, nothing is staged or held, every parameter is 0, and the part's first write is
the start-up record, then the 17 empty condition words, then the attention summary word with 0. -/
def Obligations.ResetLineReleaseCompletes : Prop :=
  ∀ (n : BitVec 4) (s : State), s.resetLine = true → s.path.queue = [] → s.path.deferred = [] →
    ∃ t, exec (.resetLineRelease n) s = .next t ∧ t.resetLine = false ∧
      t.setup = { strap := n, staged := [], geometry := none, command := .ready } ∧
        (∀ c : Chan, (t.chan c).params = ParamSet.zero ∧ (t.chan c).waiting = none ∧ (t.chan c).record.state = .off) ∧
          t.status = { Status.initial with resets := min (s.status.resets + 1) 65535 } ∧ t.path.deferred = [] ∧
            t.path.queue =
              { kind := .word, addr := 134217728 * n.toNat + 0x2100
                data := startUpBytes 2 n (min (s.status.resets + 1) 65535) } ::
                ((List.range 17).map fun i =>
                    { kind := .word, addr := 134217728 * n.toNat + (0x2040 + 8 * i), data := zeros 8 }) ++
                  [{ kind := .word, addr := 134217728 * n.toNat + 0x2008, data := zeros 8 }] ∧
              t.us = s.us ∧ t.ms = s.ms ∧ t.path.list = s.path.list

/-! ## System-side transactions -/

/-- SYSTEM_WRITE of no watched region: the write enters the list not held, with its data unchanged, and nothing else of the
part changes. While the reset line is asserted that is so of every write. So is it of a write of beats that no line takes:
padding, beats without an enable, beats of the slot being skipped, of a window not watched, of a replay slot nobody owns. A
write with stray beats of a channel's window is forwarded too, and counted once, however many it carries (R11). A header beat 0
of a replay line for no channel makes its slot the unrouted slot; a channel that is assembling the slot still takes the beat
into its line (R23; that it does is log 46's, DEDUCED). A header beat 0 that a line takes is forwarded, and starts the line in
the lowest FREE entry, or is merged into it; the header and pixel beats of one write are merged in together. The beats of a
write are taken in ascending address order, each whole before the next (R5): a write of `xs` and then `ys` does to the part
what the write of `xs`, and then that of `ys`, would do; strays apart, which count once. (What stands in a claimed entry and R6
does not name: log 37.) -/
def Obligations.UnwatchedWriteIsForwarded : Prop :=
  (∀ (mf : BitVec 8) (addr : BitVec 40) (beats : List Beat) (s : State),
    addr.toNat % 8 = 0 → 1 ≤ beats.length → beats.length ≤ 16 → s.path.port = [] → notHeldCount s.path < 8 →
      (s.resetLine = false → s.setup.command = .ready →
        (∀ i, i < beats.length → regionOf s (addr.toNat + 8 * i) = .elsewhere) →
          exec (.systemWrite mf addr beats) s =
            .next
              { s with
                mfIn := mf
                path := { s.path with
                  nextId := s.path.nextId + 1
                  list := s.path.list ++
                    [{ id := s.path.nextId, addr := addr.toNat, body := .write beats, held := false
                       watch := if s.setup.geometry = none then .setupOnly else .all }] } }) ∧
        (s.resetLine = true →
          exec (.systemWrite mf addr beats) s =
            .next
              { s with
                mfIn := mf
                path := { s.path with
                  nextId := s.path.nextId + 1
                  list := s.path.list ++
                    [{ id := s.path.nextId, addr := addr.toNat, body := .write beats, held := false
                       watch := .none }] } })) ∧
    (∀ (mf : BitVec 8) (addr : BitVec 40) (beats : List Beat) (g : Geometry) (s : State),
      Accepting s → s.setup.command = .ready → s.setup.geometry = some g → addr.toNat % 8 = 0 → 1 ≤ beats.length →
        beats.length ≤ 16 →
          ((∀ (i : Nat) (b : Beat), beats[i]? = some b → noLine s g.w (addr.toNat + 8 * i) b = true) →
            exec (.systemWrite mf addr beats) s = .next (listedWrite mf addr beats s)) ∧
          (∀ c : Chan, livesOn s c = true →
            (∀ (i : Nat) (b : Beat), beats[i]? = some b →
              noLine s g.w (addr.toNat + 8 * i) b = true ∨ strayBeat s c g.w (addr.toNat + 8 * i) b = true) →
              (∃ (i : Nat) (b : Beat), beats[i]? = some b ∧ strayBeat s c g.w (addr.toNat + 8 * i) b = true) →
                exec (.systemWrite mf addr beats) s =
                  .next
                    { listedWrite mf addr beats s with
                      status := { s.status with
                        counters := s.status.counters.set c
                          { s.status.counters.get c with
                            malformed := min ((s.status.counters.get c).malformed + 1) 65535 } } }) ∧
          ∀ (c : Chan) (j o : Nat) (e : Fin 2),
            (∀ i, i < beats.length → BeatReaches s c j (o + 8 * i) (addr.toNat + 8 * i)) → o % 8 = 0 → 8 ≤ o →
              o + 8 * beats.length ≤ 32 + g.w → (s.chan c).capture.asm = .assembling j →
                assemblingEntry (s.chan c).capture = some e → wfStore 0 (entryOf (s.chan c).capture e).buffer = true →
                  ∃ new, MergedBeats o beats (entryOf (s.chan c).capture e) new ∧
                    exec (.systemWrite mf addr beats) s =
                      .next
                        (setChan c { s.chan c with capture := setEntry (s.chan c).capture e new }
                          (listedWrite mf addr beats s))) ∧
    (∀ (mf : BitVec 8) (addr : BitVec 40) (b : Beat) (g : Geometry) (s : State),
      Accepting s → s.setup.command = .ready → s.setup.geometry = some g → addr.toNat % 8 = 0 →
        (∀ j : Nat, regionOf s addr.toNat = .replay j 0 → b.enables ≠ 0 →
          (3 < writtenByte b 4 ∨ 3 < writtenByte b 5 ∨
              ∀ d : Chan, d.val = 4 * writtenByte b 4 + writtenByte b 5 → replays s d = false) →
            ∃ t, exec (.systemWrite mf addr [b]) s = .next t ∧ t.unrouted = some j ∧
              t.path.list = (listedWrite mf addr [b] s).path.list ∧ t.ring = s.ring ∧ t.strands = s.strands ∧
              t.engine = s.engine ∧ t.setup = s.setup ∧ t.status.part.latched = s.status.part.latched ||| 128 ∧
              t.status.words = s.status.words ∧ t.status.counters = s.status.counters ∧
              t.status.partCounters = s.status.partCounters ∧
              ((∀ d : Chan, replays s d = true → (s.chan d).capture.asm ≠ .assembling j) → t.chans = s.chans) ∧
              ∀ (c : Chan) (e : Fin 2), replays s c = true → AloneAt s c j → (s.chan c).capture.asm = .assembling j →
                assemblingEntry (s.chan c).capture = some e → wfStore 0 (entryOf (s.chan c).capture e).buffer = true →
                  ∃ new, MergedBeat 0 b (entryOf (s.chan c).capture e) new ∧
                    t.chans = s.chans.set c { s.chan c with capture := setEntry (s.chan c).capture e new }) ∧
        (∀ (c : Chan) (j : Nat) (e : Fin 2), HeaderReaches s c j addr.toNat b →
          (∀ k, (s.chan c).capture.asm ≠ .assembling k) → (entryOf (s.chan c).capture e).state = .free →
            (e = 1 → (s.chan c).capture.e0.state ≠ .free) →
              ∃ new, StartedEntry j b new ∧
                exec (.systemWrite mf addr [b]) s =
                  .next
                    { setChan c
                        { s.chan c with
                          capture := { setEntry (s.chan c).capture e new with asm := .assembling j } }
                        (listedWrite mf addr [b] s) with
                      unrouted := unroutedAfter s j addr.toNat }) ∧
        (∀ (c : Chan) (j : Nat) (e : Fin 2), HeaderReaches s c j addr.toNat b →
          (s.chan c).capture.asm = .assembling j → assemblingEntry (s.chan c).capture = some e →
            wfStore 0 (entryOf (s.chan c).capture e).buffer = true →
              ∃ new, MergedBeat 0 b (entryOf (s.chan c).capture e) new ∧
                exec (.systemWrite mf addr [b]) s =
                  .next
                    { setChan c { s.chan c with capture := setEntry (s.chan c).capture e new }
                        (listedWrite mf addr [b] s) with
                      unrouted := unroutedAfter s j addr.toNat })) ∧
    ∀ (mf : BitVec 8) (addr : BitVec 40) (xs ys : List Beat) (s t1 t2 : State),
      Accepting s → s.setup.command = .ready → addr.toNat % 8 = 0 → 1 ≤ xs.length → 1 ≤ ys.length →
        xs.length + ys.length ≤ 16 → addr.toNat + 8 * (xs.length + ys.length) ≤ 1099511627776 →
          (addr.toNat + 8 * (xs.length + ys.length) ≤ setupBase s.setup.strap ∨
            setupBase s.setup.strap + setupSize ≤ addr.toNat) →
            exec (.systemWrite mf addr xs) s = .next t1 →
              exec (.systemWrite mf (addr + BitVec.ofNat 40 (8 * xs.length)) ys) { t1 with path := s.path } = .next t2 →
                ∃ t x y xs' ys', exec (.systemWrite mf addr (xs ++ ys)) s = .next t ∧
                  t1.path.list = s.path.list ++ [x] ∧ x.body = .write xs' ∧
                  t2.path.list = s.path.list ++ [y] ∧ y.body = .write ys' ∧
                  t.path.list = s.path.list ++ [{ x with body := .write (xs' ++ ys'), held := x.held || y.held }] ∧
                  (∀ c : Chan,
                    t.chan c =
                      { t2.chan c with
                        held := (t1.chan c).held ++
                          ((t2.chan c).held.drop (t1.chan c).held.length).map fun h =>
                            { h with beat := xs.length + h.beat } }) ∧
                  t.unrouted = t2.unrouted ∧ t.strands = t2.strands ∧ t.ring = t2.ring ∧ t.engine = t2.engine ∧
                  t.setup = t2.setup ∧ t.status.part.latched = t2.status.part.latched ∧
                  t.status.partCounters = t2.status.partCounters ∧
                  ∀ c : Chan,
                    (t.status.words.get c).latched = (t2.status.words.get c).latched ∧
                      { t.status.counters.get c with malformed := 0 } =
                        { t2.status.counters.get c with malformed := 0 }

/-- SYSTEM_READ: the read enters the list not held, and nothing else of the part changes. -/
def Obligations.SystemReadEntersTheList : Prop :=
  ∀ (addr : BitVec 40) (n : Nat) (s : State),
    addr.toNat % 8 = 0 → 1 ≤ n → n ≤ 16 → s.path.port = [] → notHeldCount s.path < 8 →
      exec (.systemRead addr n) s =
        .next
          { s with
            path := { s.path with
              nextId := s.path.nextId + 1
              list := s.path.list ++
                [{ id := s.path.nextId, addr := addr.toNat, body := .read n, held := false
                   watch :=
                     if s.resetLine = true then .none else if s.setup.geometry = none then .setupOnly else .all }] } }

/-- With 8 transactions not held in the list, or others waiting, a transaction waits at the port and has no effect (that
the waiting ones stand in a first-in, first-out list is log 4's). -/
def Obligations.TransactionsWaitWhileTheListIsFull : Prop :=
  ∀ (mf : BitVec 8) (addr : BitVec 40) (beats : List Beat) (n : Nat) (s : State),
    addr.toNat % 8 = 0 → (s.path.port ≠ [] ∨ 8 ≤ notHeldCount s.path) →
      (1 ≤ beats.length → beats.length ≤ 16 →
        exec (.systemWrite mf addr beats) s =
          .next
            { s with
              mfIn := mf
              path := { s.path with
                nextId := s.path.nextId + 1
                port := s.path.port ++ [{ id := s.path.nextId, addr := addr.toNat, body := .write beats }] } }) ∧
        (1 ≤ n → n ≤ 16 →
          exec (.systemRead addr n) s =
            .next
              { s with
                path := { s.path with
                  nextId := s.path.nextId + 1
                  port := s.path.port ++ [{ id := s.path.nextId, addr := addr.toNat, body := .read n }] } })

/-- What is no transaction of section 9.1's table has no outcome (log 26). -/
def Obligations.IllFormedTransactionsAreRefused : Prop :=
  (∀ (mf : BitVec 8) (addr : BitVec 40) (beats : List Beat) (s : State),
      (addr.toNat % 8 ≠ 0 ∨ beats.length = 0 ∨ 16 < beats.length) →
        exec (.systemWrite mf addr beats) s = .refused .notATransaction) ∧
    (∀ (addr : BitVec 40) (n : Nat) (s : State),
      (addr.toNat % 8 ≠ 0 ∨ n = 0 ∨ 16 < n) → exec (.systemRead addr n) s = .refused .notATransaction) ∧
      ∀ (offset : BitVec 14) (beats : List Beat) (s : State),
        (offset.toNat % 8 ≠ 0 ∨ beats.length = 0 ∨ 16 < beats.length) →
          exec (.stagedWrite offset beats) s = .refused .notATransaction

/-- The trailer beat of a line to be analysed (R15's last row, R12's causes absent): its transaction enters the list held, its
hold timer starts, the entry joins the queue as QUEUED with its gap (R13), and the sequence of the line becomes the last
sequence; a gap sets LINE_LOSS. The completion restarts the stall timer, or returns a STALLED channel to INSPECTING (R31). A
line of a LIVE channel sets its strand's last count, fires the marks due and starts or extends the pulse (R147, R150, R151).
Onto an empty queue in WAITING it is the billet head. Other channels are as they were. So in the channel's own line window and
in the replay window. (The MF levels are the command's, log 9; the head flag is the model's, log 37.) -/
def Obligations.TrailerOfALineToBeAnalysedIsHeld : Prop :=
  ∀ (mf : BitVec 8) (addr : BitVec 40) (b : Beat) (c : Chan) (j : Nat) (e : Fin 2) (en : Entry) (g : Geometry) (s : State),
    Accepting s → s.setup.command = .ready → s.setup.geometry = some g → addr.toNat % 8 = 0 →
      BeatReaches s c j (32 + g.w) addr.toNat → (s.chan c).capture.asm = .assembling j →
        assemblingEntry (s.chan c).capture = some e → en = entryOf (s.chan c).capture e →
          ClassGiven mf s c en .toAnalyse →
            ∃ t, exec (.systemWrite mf addr [b]) s = .next t ∧ CompletionOnly s t c en ∧
              t.path.list = s.path.list ++
                [{ id := s.path.nextId, addr := addr.toNat, body := .write [b], held := true, watch := .all }] ∧
              (t.chan c).held = (s.chan c).held ++
                [{ entry := e, txn := s.path.nextId, beat := 0, start := s.us
                   length := 10 * (s.chan c).params.chan.holdTens }] ∧
              (t.chan c).capture =
                { setEntry (s.chan c).capture e
                    { en with
                      state := .queued, cls := some .toAnalyse, gap := gapOf s c en
                      isHead :=
                        if (s.chan c).record.state = .waiting ∧ (s.chan c).capture.queue = [] then true else en.isHead } with
                  asm := .idle
                  queue := (s.chan c).capture.queue ++ [e]
                  lastSeq := some (lineSeq en)
                  unplaced := 0 } ∧
              (t.chan c).tracks = (s.chan c).tracks ∧ (t.chan c).background = (s.chan c).background ∧
              (t.chan c).params = (s.chan c).params ∧ (t.chan c).waiting = (s.chan c).waiting ∧
              t.strands = strandsCounted s c en ∧ t.ring = s.ring ∧
              t.status.counters.get c = s.status.counters.get c ∧ t.status.partCounters = s.status.partCounters ∧
              t.status.part = s.status.part ∧
              (¬((s.chan c).record.state = .waiting ∧ (s.chan c).capture.queue = []) →
                (t.chan c).band = (s.chan c).band ∧ (t.chan c).record = (reported s.ms (s.chan c)).record) ∧
              ((s.chan c).record.state = .waiting → (s.chan c).capture.queue = [] →
                (t.chan c).band = { (s.chan c).band with prevCentre := none } ∧
                  (t.chan c).record =
                    { (s.chan c).record with
                      state := .inspecting
                      billet := if (s.chan c).record.billet < 65535 then (s.chan c).record.billet + 1 else 1
                      headCount := lineCount en
                      lastAnalysed := lineCount en
                      serial := 0
                      tallies := Tallies.zero
                      warmupLeft := (s.chan c).params.chan.wu
                      stall := some { start := s.ms, length := 10 * (s.chan c).params.chan.stallTens } })

/-- The trailer beat of a line of any other class (R12, R15): the transaction enters the list not held with the beat
rewritten to the verdict of the class, all enables set; the assembly ends; the line is placed by R13; other channels are as
they were. The completion restarts the stall timer, or returns a STALLED channel to INSPECTING (R31), and a line of a LIVE
channel that is not MALFORMED sets its strand's last count, fires the marks due and starts or extends the pulse (R147, R150,
R151; before its effect at the head, log 18). Behind another line it is QUEUED. Onto an empty queue it is at the head and
retires at once, an open billet's waiting set first becoming current (log 19), with what R16 adds to the unseen run; an
excess over MAXSKIP makes the channel blind (R17; the test at every retirement is log 33's). A NO_BILLET line at the head of
an open billet is its tail (R30): the timers stop, the channel is WAITING, the tracks close in ascending ID, the episode, and
the BILLET record without a flag follow, FLUSH_ON_TAIL asks for a flush (BILLET length by the current set: log 15). A line
whose header beat 0 finds no FREE entry is skipped and counted, its trailer takes SKIPPED_BUSY; a line abandoned by the
header beat 0 of another slot is counted MALFORMED, its entry freed, the new line started; the unseen contribution of either
goes to the youngest entry of the queue, and with an empty queue to the unseen run, the unseen counter and an open billet's
tally at once (log 23, DEDUCED). A header beat 0 routed to a channel ends what another channel has at that replay slot (R22):
a line in progress is abandoned, a skip ends with no verdict. The trailer of the unrouted replay slot takes NOT_ROUTED. An
APPLY in progress for whose last waiting channel the line at the head makes the switch ends DONE (R179; log 20). (A FREE or
claimed entry beside R4 and R6: log 37; MF levels: log 9.) -/
def Obligations.TrailerOfAnyOtherLineIsRewrittenAtOnce : Prop :=
  (∀ (mf : BitVec 8) (addr : BitVec 40) (b : Beat) (c : Chan) (j : Nat) (e : Fin 2) (en : Entry) (g : Geometry)
    (k : LineClass) (code : Nat) (s : State),
    Accepting s → s.setup.command = .ready → s.setup.geometry = some g → addr.toNat % 8 = 0 →
      BeatReaches s c j (32 + g.w) addr.toNat → (s.chan c).capture.asm = .assembling j →
        assemblingEntry (s.chan c).capture = some e → en = entryOf (s.chan c).capture e →
          ClassGiven mf s c en k → atOnceCode k = some code →
            ∃ t, exec (.systemWrite mf addr [b]) s = .next t ∧ CompletionOnly s t c en ∧
              t.path.list = s.path.list ++
                [{ id := s.path.nextId, addr := addr.toNat
                   body := .write [{ data := BitVec.ofNat 64 code, enables := 255 }], held := false, watch := .all }] ∧
              (t.chan c).held = (s.chan c).held ∧ (t.chan c).capture.asm = .idle ∧
              (t.chan c).capture.lastSeq = lastSeqAfter s c en ∧ (t.chan c).capture.unplaced = unplacedAfter s c en ∧
              (t.chan c).background = (s.chan c).background ∧
              ((s.chan c).capture.queue ≠ [] →
                t.chan c =
                  { reported s.ms (s.chan c) with
                    capture :=
                      { setEntry (s.chan c).capture e { en with state := .queued, cls := some k, gap := gapOf s c en } with
                        asm := .idle
                        queue := (s.chan c).capture.queue ++ [e]
                        lastSeq := lastSeqAfter s c en
                        unplaced := unplacedAfter s c en } } ∧
                  t.strands = strandsCounted s c en ∧ t.ring = s.ring ∧ t.status.part = s.status.part ∧
                  (t.status.counters.get c).unseen = (s.status.counters.get c).unseen) ∧
              ∀ (ch : Channel) (n : Nat), (s.chan c).capture.queue = [] → n = addedToRun s c en k →
                ch = (if billetOpen s c = true then switched (reported s.ms (s.chan c)) else s.chan c) →
                  (t.status.counters.get c).unseen = min ((s.status.counters.get c).unseen + n) 65535 ∧
                  (¬(k = .noBillet ∧ billetOpen s c = true) →
                    (billetOpen s c = false ∨ min ((s.chan c).capture.unseenRun + n) 65535 ≤ ch.params.chan.maxSkip) →
                      t.chan c =
                        { ch with
                          capture :=
                            { setEntry (s.chan c).capture e Entry.empty with
                              asm := .idle
                              queue := []
                              lastSeq := lastSeqAfter s c en
                              unplaced := unplacedAfter s c en
                              unseenRun := min ((s.chan c).capture.unseenRun + n) 65535 }
                          record := { ch.record with
                            tallies := { (s.chan c).record.tallies with unseen := unseenTally s c n } } } ∧
                        t.strands = strandsCounted s c en ∧ t.ring = s.ring ∧ t.status.part = s.status.part) ∧
                  (k ≠ .noBillet → billetOpen s c = true →
                    ch.params.chan.maxSkip < min ((s.chan c).capture.unseenRun + n) 65535 →
                      (t.chan c).capture.unseenRun = 0 ∧ (t.chan c).capture.queue = [] ∧ (t.chan c).tracks = [] ∧
                        (t.chan c).band.episode.state = .absent ∧ (t.chan c).band.prevCentre = none ∧
                        (t.chan c).record.state = .inspecting ∧ (t.chan c).record.stall = ch.record.stall ∧
                        (t.chan c).params = ch.params) ∧
                  (k = .noBillet → billetOpen s c = true →
                    (t.chan c).capture =
                        { setEntry (s.chan c).capture e Entry.empty with
                          asm := .idle
                          queue := []
                          lastSeq := lastSeqAfter s c en
                          unplaced := unplacedAfter s c en
                          unseenRun := min ((s.chan c).capture.unseenRun + n) 65535 } ∧
                      (t.chan c).record =
                        { (s.chan c).record with
                          state := .waiting
                          stall := none
                          abandon := none
                          abandonDue := false
                          serial := (t.chan c).record.serial
                          tallies := (t.chan c).record.tallies } ∧
                      (t.chan c).tracks = [] ∧ (t.chan c).band.episode.state = .absent ∧
                      (t.chan c).params = ch.params ∧ (t.chan c).waiting = none ∧
                      (EndsInTheQueue s c →
                        BilletEnded ch.params ch.band.effPitch .tail .tail c s t
                          { s.ring with
                            flushPending := s.ring.flushPending || (s.ring.flushOnTail && !s.ring.resetWait) }))) ∧
    (∀ (mf : BitVec 8) (addr : BitVec 40) (b : Beat) (c : Chan) (j : Nat) (e : Fin 2) (g : Geometry) (k : LineClass)
      (code : Nat) (p : ParamSet) (r : Running) (s : State),
      Accepting s → s.setup.command = .inProgress r → r.code = 1 → s.setup.geometry = some g → addr.toNat % 8 = 0 →
        BeatReaches s c j (32 + g.w) addr.toNat → (s.chan c).capture.asm = .assembling j →
          assemblingEntry (s.chan c).capture = some e → ClassGiven mf s c (entryOf (s.chan c).capture e) k →
            atOnceCode k = some code → (s.chan c).capture.queue = [] → (s.chan c).record.state = .inspecting →
              (s.chan c).waiting = some p → (∀ d, d ≠ c → (s.chan d).waiting = none) →
                ∃ t, exec (.systemWrite mf addr [b]) s = .next t ∧ (t.chan c).params = p ∧ (t.chan c).waiting = none ∧
                  t.setup.command = .ready ∧ WordOffered 0x2000 (doneWord r) t) ∧
    ∀ (mf : BitVec 8) (addr : BitVec 40) (b : Beat) (g : Geometry) (s : State),
      Accepting s → s.setup.command = .ready → s.setup.geometry = some g → addr.toNat % 8 = 0 →
        (∀ (c : Chan) (j : Nat), BeatReaches s c j (32 + g.w) addr.toNat → (s.chan c).capture.asm = .skipping j →
          exec (.systemWrite mf addr [b]) s =
            .next
              (setChan c { s.chan c with capture := { (s.chan c).capture with asm := .idle } }
                (listedWrite mf addr [{ data := 6, enables := 255 }] s))) ∧
        (∀ j : Nat, regionOf s addr.toNat = .replay j (32 + g.w) → NobodyAt s j → s.unrouted = some j →
          exec (.systemWrite mf addr [b]) s =
            .next { listedWrite mf addr [{ data := 13, enables := 255 }] s with unrouted := none }) ∧
        (∀ (c : Chan) (j : Nat) (y : Fin 2), HeaderReaches s c j addr.toNat b →
          (∀ k, (s.chan c).capture.asm ≠ .assembling k) → (s.chan c).capture.e0.state ≠ .free →
            (s.chan c).capture.e1.state ≠ .free → (s.chan c).capture.queue.getLast? = some y →
              ∃ t, exec (.systemWrite mf addr [b]) s = .next t ∧
                t.path.list = (listedWrite mf addr [b] s).path.list ∧
                t.chan c =
                  { s.chan c with
                    capture :=
                      { setEntry (s.chan c).capture y
                          { entryOf (s.chan c).capture y with
                            unseenAfter := min ((entryOf (s.chan c).capture y).unseenAfter + 1) 65535 } with
                        asm := .skipping j
                        unplaced := min ((s.chan c).capture.unplaced + 1) 65535 } } ∧
                (∀ d, d ≠ c → t.chan d = s.chan d) ∧ t.unrouted = unroutedAfter s j addr.toNat ∧ t.ring = s.ring ∧
                t.status.counters = s.status.counters.set c
                  { s.status.counters.get c with
                    skippedBusy := min ((s.status.counters.get c).skippedBusy + 1) 65535 } ∧
                (t.status.words.get c).latched = (s.status.words.get c).latched ||| 2) ∧
        (∀ (c : Chan) (j k : Nat) (e f : Fin 2), HeaderReaches s c j addr.toNat b →
          (s.chan c).capture.asm = .assembling k → k ≠ j → assemblingEntry (s.chan c).capture = some e →
            ((s.chan c).capture.queue ≠ [] ∨ NotBlind s c (min ((s.chan c).capture.unseenRun + 1) 65535)) →
              Claimed (abandonedChan s c e).capture f →
                ∃ t new, exec (.systemWrite mf addr [b]) s = .next t ∧ StartedEntry j b new ∧
                  t.path.list = (listedWrite mf addr [b] s).path.list ∧
                  t.chan c =
                    { abandonedChan s c e with
                      capture := { setEntry (abandonedChan s c e).capture f new with asm := .assembling j } } ∧
                  (∀ d, d ≠ c → t.chan d = s.chan d) ∧ t.unrouted = unroutedAfter s j addr.toNat ∧ t.ring = s.ring ∧
                  t.status.counters = s.status.counters.set c (abandonedCounters s c) ∧
                  (t.status.words.get c).latched = (s.status.words.get c).latched ||| 4) ∧
        ∀ (c d : Chan) (j : Nat) (f : Fin 2), RoutedTo s c j addr.toNat b → d ≠ c → replays s d = true →
          (∀ x : Chan, x ≠ c → x ≠ d → replays s x = true →
            (s.chan x).capture.asm ≠ .assembling j ∧ (s.chan x).capture.asm ≠ .skipping j) →
            (∀ k, (s.chan c).capture.asm ≠ .assembling k) → Claimed (s.chan c).capture f →
              (∀ x : Fin 2, (s.chan d).capture.asm = .assembling j → assemblingEntry (s.chan d).capture = some x →
                ((s.chan d).capture.queue ≠ [] ∨ NotBlind s d (min ((s.chan d).capture.unseenRun + 1) 65535)) →
                  ∃ t new, exec (.systemWrite mf addr [b]) s = .next t ∧ StartedEntry j b new ∧
                    t.path.list = (listedWrite mf addr [b] s).path.list ∧
                    t.chan c =
                      { s.chan c with
                        capture := { setEntry (s.chan c).capture f new with asm := .assembling j } } ∧
                    t.chan d = abandonedChan s d x ∧ (∀ y, y ≠ c → y ≠ d → t.chan y = s.chan y) ∧
                    t.unrouted = unroutedAfter s j addr.toNat ∧ t.ring = s.ring ∧
                    t.status.counters = s.status.counters.set d (abandonedCounters s d) ∧
                    (t.status.words.get d).latched = (s.status.words.get d).latched ||| 4) ∧
              ((s.chan d).capture.asm = .skipping j →
                ∃ new, StartedEntry j b new ∧
                  exec (.systemWrite mf addr [b]) s =
                    .next
                      { setChan c
                          { s.chan c with capture := { setEntry (s.chan c).capture f new with asm := .assembling j } }
                          (setChan d { s.chan d with capture := { (s.chan d).capture with asm := .idle } }
                            (listedWrite mf addr [b] s)) with
                        unrouted := unroutedAfter s j addr.toNat })

/-- STAGED_WRITE: each byte of a host-written region whose enable is set replaces the staged byte, every other staged byte
is as it was. A write that does not set the enable of the command word's byte 7 enters the list unchanged and changes
nothing else. -/
def Obligations.StagedWriteMergesTheHostWrittenBytes : Prop :=
  ∀ (offset : BitVec 14) (beats : List Beat) (s : State),
    Accepting s → wfStore 0 s.setup.staged = true → offset.toNat % 8 = 0 → 1 ≤ beats.length → beats.length ≤ 16 →
      offset.toNat + 8 * beats.length ≤ 16384 →
        ∃ t, exec (.stagedWrite offset beats) s = .next t ∧
          (∀ k : Nat,
            readStore 0 t.setup.staged k =
              match beats[(k - offset.toNat) / 8]? with
              | none => readStore 0 s.setup.staged k
              | some b =>
                if offset.toNat ≤ k ∧ hostWritten k = true ∧ b.enables.getLsbD ((k - offset.toNat) % 8) = true then
                  byteOf b.data ((k - offset.toNat) % 8)
                else readStore 0 s.setup.staged k) ∧
            (s.setup.command = .ready →
              (∀ (i : Nat) (b : Beat), beats[i]? = some b → offset.toNat + 8 * i = 0x140 → b.enables.getLsbD 7 = false) →
                t =
                  { s with
                    setup := { s.setup with staged := t.setup.staged }
                    path := { s.path with
                      nextId := s.path.nextId + 1
                      list := s.path.list ++
                        [{ id := s.path.nextId, addr := 134217728 * s.setup.strap.toNat + offset.toNat
                           body := .write beats, held := false
                           watch := if s.setup.geometry = none then .setupOnly else .all }] } })

/-- The earliest-accepted eligible transaction: not held, overlapping none accepted before it and still in the list, and
every one before it is held or overlaps one before that. -/
def Obligations.TheEarliestEligibleTransactionIsIssued : Prop :=
  ∀ (p : Path) (x : SysTxn), eligibleTxn p = some x ↔
    ∃ before after, p.list = before ++ x :: after ∧ x.held = false ∧ (∀ y ∈ before, overlaps x y = false) ∧
      ∀ (l r : List SysTxn) (y : SysTxn), before = l ++ y :: r →
        y.held = true ∨ ∃ z ∈ l, overlaps y z = true

/-- MEMORY_SIDE_GRANT to the system side: alone in asking, or with fewer than 24 part writes queued, or with the part
given it last: its eligible transaction is issued as it stands. A transaction that waits at the port is then accepted, as if it
were presented as the grant has left the part (R159; that those waiting are accepted in order is log 4's, the model's): the
grant that leaves the list with room for one accepts the first of them. -/
def Obligations.GrantIssuesTheSystemSide : Prop :=
  (∀ (mf : BitVec 8) (x : SysTxn) (s : State), eligibleTxn s.path = some x → s.path.port = [] →
    (s.path.queue.length < 24 ∨ s.path.lastSide = .part) →
      exec (.memorySideGrant mf) s =
        .next
          { s with
            mfIn := mf
            path := { s.path with
              list := s.path.list.filter fun y => decide (y.id ≠ x.id)
              sysOut := s.path.sysOut ++
                [{ id := x.id, addr := x.addr, beats := bodyBeats x.body, isRead := isRead x.body, watch := x.watch
                   shown := if isRead x.body = true ∧ x.watch ≠ .none then shownCopies s x else [] }]
              lastSide := .system
              memLog := s.path.memLog ++ [.fromSystem x.id x.addr x.body] } }) ∧
    ∀ (mf : BitVec 8) (i : Instr) (x : SysTxn) (p : PortTxn) (ps : List PortTxn) (s u v : State),
      eligibleTxn s.path = some x → s.path.port = p :: ps → notHeldCount s.path ≤ 8 →
        (s.path.queue.length < 24 ∨ s.path.lastSide = .part) → p.addr % 8 = 0 → p.addr < 1099511627776 →
          ((∃ beats, p.body = .write beats ∧ 1 ≤ beats.length ∧ beats.length ≤ 16 ∧
              i = .systemWrite mf (BitVec.ofNat 40 p.addr) beats) ∨
            ∃ n, p.body = .read n ∧ 1 ≤ n ∧ n ≤ 16 ∧ i = .systemRead (BitVec.ofNat 40 p.addr) n) →
            exec (.memorySideGrant mf) { s with path := { s.path with port := [] } } = .next u →
              exec i { u with path := { u.path with nextId := p.id } } = .next v →
                (ps = [] ∨ 8 ≤ notHeldCount v.path) →
                  exec (.memorySideGrant mf) s =
                    .next { v with path := { v.path with port := ps, nextId := s.path.nextId } }

/-- MEMORY_SIDE_GRANT to the part: the head of the outgoing write queue is issued and becomes outstanding; the deferred
content with the lowest address enters at the tail in the same act. FILLER records that await admission are offered again, as
many as the depth now admits (R140, R165), but not while RESET_PART awaits the ring writer (R143). -/
def Obligations.GrantIssuesThePartsHeadWrite : Prop :=
  ∀ (mf : BitVec 8) (e : OutEntry) (q : List OutEntry) (s : State), s.path.queue = e :: q →
    (eligibleTxn s.path = none ∨ (24 ≤ s.path.queue.length ∧ s.path.lastSide = .system)) →
      ∃ t, exec (.memorySideGrant mf) s = .next t ∧ t.path.lastSide = .part ∧
        t.path.memLog = s.path.memLog ++ [.fromPart s.path.nextId e] ∧
          t.path.partOut = s.path.partOut ++
            [{ id := s.path.nextId, kind := e.kind, addr := e.addr, data := e.data, live := true }] ∧
          t.path.list = s.path.list ∧ t.chans = s.chans ∧ t.status = s.status ∧
          (s.ring.fillers = 0 →
            t.ring = s.ring ∧
              match s.path.deferred with
              | [] => t.path.queue = q ∧ t.path.deferred = []
              | (a, d) :: rest =>
                t.path.queue = q ++ [{ kind := .word, addr := a, data := d }] ∧ t.path.deferred = rest) ∧
          (s.path.deferred = [] →
            ((s.ring.resetWait = true ∨ ∀ i, s.ring.fill ≠ .filling i) →
              t.ring = s.ring ∧ t.path.queue = q ∧ t.path.deferred = []) ∧
            ∀ (i n : Nat) (g : Geometry), s.ring.fill = .filling i → s.ring.resetWait = false →
              s.setup.geometry = some g → n = min s.ring.fillers (24 - q.length) →
                t.path.deferred = [] ∧
                  t.path.queue = q ++
                    (List.range n).map (fun m =>
                      { kind := .record
                        addr := g.ringBase + i * g.b * 32 + (g.b - (s.ring.fillers - m)) * 32
                        data := 4 :: zeros 31 }) ∧
                  t.ring =
                    { s.ring with
                      fillers := s.ring.fillers - n
                      outstanding := s.ring.outstanding + n })

/-- READ_DATA_RETURN: the answer to an outstanding transaction is passed back unchanged; an answer to a write, an ERROR, and
a read that covers neither a condition word nor a slot's first beat do nothing else. An answer to nothing outstanding does
nothing (log 25). That a read under way as the reset line is asserted acts on no block at its answer is log 13's (DEDUCED):
the model's. -/
def Obligations.ReadDataReturnPassesTheAnswerBack : Prop :=
  ∀ (id : Nat) (status : RespStatus) (data : List Word64) (s : State),
    (∀ o, s.path.sysOut.find? (fun o => decide (o.id = id)) = some o →
      (status = .error ∨ o.isRead = false ∨ o.watch = .none ∨
        (o.shown = [] ∧ (o.watch = .setupOnly ∨ coveredSlot s o.addr o.beats = none))) →
        exec (.readDataReturn id status data) s =
          .next
            { s with
              path := { s.path with
                sysOut := s.path.sysOut.filter fun u => decide (u.id ≠ o.id)
                sysLog := s.path.sysLog ++ [{ id := o.id, status := status, data := data }] } }) ∧
      (s.path.sysOut.find? (fun o => decide (o.id = id)) = none → exec (.readDataReturn id status data) s = .next s)

/-- BATCH_TAKE: a read of slot `i`'s first beat returned OK makes a READY slot FREE, or FILLING where the ring was blocked on
it; a slot that is FREE or FILLING is not touched. -/
def Obligations.BatchTakeFreesTheReadySlot : Prop :=
  ∀ (id i : Nat) (data : List Word64) (o : SysOut) (g : Geometry) (s : State),
    s.setup.geometry = some g → 4 ≤ g.b → s.path.sysOut.find? (fun o => decide (o.id = id)) = some o →
      o.isRead = true → o.watch = .all → o.shown = [] → o.beats ≤ 16 → i < s.ring.slots.length →
        o.addr ≤ g.ringBase + i * g.b * 32 → g.ringBase + i * g.b * 32 + 8 ≤ o.addr + 8 * o.beats →
          s.ring.resetWait = false →
            ∃ t, exec (.batchTake id data) s = .next t ∧
              t.path.sysLog = s.path.sysLog ++ [{ id := o.id, status := .ok, data := data }] ∧
              t.path.sysOut = (s.path.sysOut.filter fun u => decide (u.id ≠ o.id)) ∧ t.chans = s.chans ∧
              t.status = s.status ∧ t.path.queue = s.path.queue ∧
              (slotStateOf s.ring i ≠ .ready → t.ring = s.ring) ∧
              (slotStateOf s.ring i = .ready → s.ring.fill ≠ .blocked i →
                t.ring = { s.ring with slots := s.ring.slots.set i { state := .free, places := 0 } }) ∧
              (slotStateOf s.ring i = .ready → s.ring.fill = .blocked i →
                t.ring =
                  { s.ring with
                    slots := s.ring.slots.set i { state := .filling, places := 0 }
                    fill := .filling i
                    flushPending := s.ring.flushPending && !s.ring.queue.isEmpty })

/-- CONDITION_WORD_READ: a read of one condition word returned OK removes from its latched set the conditions that its
published copy showed at the read's issue and that are not present; a change is written again. -/
def Obligations.ConditionWordReadClearsWhatItShowed : Prop :=
  ∀ (id : Nat) (data : List Word64) (o : SysOut) (w : Owner) (pub : BitVec 16) (s : State),
    s.path.sysOut.find? (fun o => decide (o.id = id)) = some o → o.isRead = true → o.watch ≠ .none →
      o.shown = [(ownerIndex w, pub)] → (o.watch = .setupOnly ∨ coveredSlot s o.addr o.beats = none) →
        ∃ t, exec (.conditionWordRead id data) s = .next t ∧
          t.path.sysLog = s.path.sysLog ++ [{ id := o.id, status := .ok, data := data }] ∧
          t.chans = s.chans ∧ t.ring = s.ring ∧ t.strands = s.strands ∧ t.engine = s.engine ∧
          (condWordOf t.status w).latched = (condWordOf s.status w).latched &&& ~~~(pub &&& ~~~presentSet s w) ∧
          (∀ v, v ≠ w → condWordOf t.status v = condWordOf s.status v) ∧
          t.status.counters = s.status.counters ∧
          ((condWordOf t.status w).latched ≠ (condWordOf s.status w).latched →
            WordOffered (0x2040 + 8 * ownerIndex w)
              ([BitVec.ofNat 8 (condWordOf t.status w).latched.toNat,
                  BitVec.ofNat 8 ((condWordOf t.status w).latched.toNat / 256)] ++ zeros 6) t)

/-- PART_WRITE_RESPONSE to a STATUS or WORD write: the write is complete; an OK to a condition word's write gives its
published copy unless a later write has given it, an OK to any other word's does nothing more; an ERROR latches MEMORY_ERROR
and is counted. A response to a RECORD write that is not the last of a full slot, or that comes while RESET_PART awaits the
ring writer (R143), leaves one write outstanding less and, but for what an ERROR does, nothing else. A response to a write
issued before the reset line was asserted is absorbed. -/
def Obligations.PartWriteResponseCompletesTheWrite : Prop :=
  ∀ (id : Nat) (status : RespStatus) (o : PartOut) (s : State),
    s.path.partOut.find? (fun o => decide (o.id = id)) = some o →
      ((o.live = false ∨ (o.kind = .status ∧ status = .ok) ∨
          (o.kind = .word ∧ status = .ok ∧
            ∀ w : Owner, o.addr ≠ setupBase s.setup.strap + conditionAt (ownerIndex w))) →
        exec (.partWriteResponse id status) s =
          .next
            { s with path := { s.path with partOut := s.path.partOut.filter fun u => decide (u.id ≠ o.id) } }) ∧
      (∀ w : Owner, o.live = true → o.kind = .word → status = .ok →
        o.addr = setupBase s.setup.strap + conditionAt (ownerIndex w) →
          ∃ t, exec (.partWriteResponse id status) s = .next t ∧ t.chans = s.chans ∧ t.ring = s.ring ∧
            t.path.queue = s.path.queue ∧
              t.path.partOut = (s.path.partOut.filter fun u => decide (u.id ≠ o.id)) ∧
              condWordOf t.status w =
                (if (condWordOf s.status w).publishedBy ≤ o.id then
                  { condWordOf s.status w with
                    published := BitVec.ofNat 16 (leNat (o.data.take 2)), publishedBy := o.id }
                else condWordOf s.status w) ∧
              ∀ v, v ≠ w → condWordOf t.status v = condWordOf s.status v) ∧
      (o.live = true → o.kind = .record →
        (s.ring.resetWait = true ∨ s.ring.fillers ≠ 0 ∨ 2 ≤ s.ring.outstanding ∨
          ∀ i, s.ring.fill = .filling i → placesOf s.ring i ≠ heldB s) →
          (status = .ok →
            exec (.partWriteResponse id status) s =
              .next
                { s with
                  path := { s.path with partOut := s.path.partOut.filter fun u => decide (u.id ≠ o.id) }
                  ring := { s.ring with outstanding := s.ring.outstanding - 1 } }) ∧
          (status = .error →
            ∃ t, exec (.partWriteResponse id status) s = .next t ∧ t.chans = s.chans ∧
              t.ring = { s.ring with outstanding := s.ring.outstanding - 1 } ∧ t.strands = s.strands ∧
              t.engine = s.engine ∧ t.setup = s.setup ∧
              t.path.partOut = (s.path.partOut.filter fun u => decide (u.id ≠ o.id)) ∧ t.path.list = s.path.list ∧
              t.status.partCounters =
                { s.status.partCounters with memoryErrors := min (s.status.partCounters.memoryErrors + 1) 65535 } ∧
              t.status.part.latched = s.status.part.latched ||| 64 ∧ t.status.words = s.status.words)) ∧
      (o.live = true → o.kind ≠ .record → status = .error →
        ∃ t, exec (.partWriteResponse id status) s = .next t ∧ t.chans = s.chans ∧ t.ring = s.ring ∧
          t.path.partOut = (s.path.partOut.filter fun u => decide (u.id ≠ o.id)) ∧
            t.status.partCounters =
              { s.status.partCounters with memoryErrors := min (s.status.partCounters.memoryErrors + 1) 65535 } ∧
              t.status.part.latched = s.status.part.latched ||| 64 ∧ t.status.words = s.status.words)

/-- The last RECORD write of a full FILLING slot is answered: the slot becomes READY, the ring index increases and is
written, BATCH_READY is set, and the next slot becomes FILLING if it is FREE and blocks the ring if it is READY. With ERROR it
counts as complete too, MEMORY_ERROR latched and counted (R135, R168; the order of the words that one act then writes is log
45's, the model's, and of it the statement says nothing). -/
def Obligations.TheLastRecordResponseMakesTheSlotReady : Prop :=
  ∀ (id i : Nat) (status : RespStatus) (o : PartOut) (g : Geometry) (s : State),
    s.path.partOut.find? (fun o => decide (o.id = id)) = some o → o.live = true → o.kind = .record →
      s.setup.geometry = some g → s.ring.fill = .filling i → i < s.ring.slots.length → 2 ≤ s.ring.slots.length →
        placesOf s.ring i = g.b → s.ring.fillers = 0 → s.ring.outstanding = 1 → s.ring.resetWait = false →
          ∃ t, exec (.partWriteResponse id status) s = .next t ∧ t.chans = s.chans ∧
            WordOffered 0x2010 (leBytes 4 (s.ring.index + 1).toNat ++ zeros 4) t ∧
            (slotStateOf s.ring ((i + 1) % s.ring.slots.length) = .free →
              t.ring =
                { s.ring with
                  slots :=
                    (s.ring.slots.set i { state := .ready, places := g.b }).set ((i + 1) % s.ring.slots.length)
                      { state := .filling, places := 0 }
                  fill := .filling ((i + 1) % s.ring.slots.length)
                  index := s.ring.index + 1
                  outstanding := 0
                  flushPending := s.ring.flushPending && !s.ring.queue.isEmpty } ∧
                t.status.part.latched =
                  s.status.part.latched ||| 1 ||| (match status with | .ok => 0 | .error => 64)) ∧
            (slotStateOf s.ring ((i + 1) % s.ring.slots.length) = .ready →
              t.ring =
                { s.ring with
                  slots := s.ring.slots.set i { state := .ready, places := g.b }
                  fill := .blocked ((i + 1) % s.ring.slots.length)
                  index := s.ring.index + 1
                  outstanding := 0 } ∧
                t.status.part.latched =
                  s.status.part.latched ||| 3 ||| (match status with | .ok => 0 | .error => 64))

/-! ## The engine and the timers -/

/-- ENGINE_GRANT: with the engine IDLE, the first requesting channel in the order last served + 1, + 2 and so on is granted
it; the analysis takes its role and its parameter set, a waiting set of an INSPECTING channel first becoming current, with the
effective pitch recomputed from it. Where that switch is the last that an APPLY in progress waits for, the APPLY ends DONE in
the same act (R179); with a set still waiting elsewhere it stays in progress. With the engine BUSY or no channel requesting,
nothing happens (log 5, the model's). -/
def Obligations.EngineGrantServesTheNextRequest : Prop :=
  ∀ s : State,
    (∀ (d : Fin 16) (e : Fin 2) (c : Chan), c = s.engine.lastServed + 1 + d → s.engine.analysis = none →
      requests s c = true → (∀ k : Fin 16, k < d → requests s (s.engine.lastServed + 1 + k) = false) →
        (s.chan c).capture.queue.head? = some e →
          ∃ t, exec .engineGrant s = .next t ∧
            t.engine =
              { analysis := some
                  { chan := c
                    role :=
                      if (entryOf (s.chan c).capture e).isHead = true then .seed
                      else if 1 ≤ (s.chan c).record.warmupLeft then .warmup else .ordinary
                    params :=
                      if (s.chan c).record.state = .inspecting then (s.chan c).waiting.getD (s.chan c).params
                      else (s.chan c).params }
                lastServed := c } ∧
            (t.chan c).capture =
              setEntry (s.chan c).capture e { entryOf (s.chan c).capture e with state := .engaged } ∧
            (t.chan c).record = (s.chan c).record ∧ (t.chan c).tracks = (s.chan c).tracks ∧
            (t.chan c).held = (s.chan c).held ∧ (t.chan c).background = (s.chan c).background ∧
            (if (s.chan c).record.state = .inspecting then
              (t.chan c).params = (s.chan c).waiting.getD (s.chan c).params ∧ (t.chan c).waiting = none ∧
                (t.chan c).band =
                  match (s.chan c).waiting with
                  | none => (s.chan c).band
                  | some p =>
                    { (s.chan c).band with effPitch := effectivePitch p.chan (s.chan c).band.pitchRing }
            else
              (t.chan c).params = (s.chan c).params ∧ (t.chan c).waiting = (s.chan c).waiting ∧
                (t.chan c).band = (s.chan c).band) ∧
            (∀ x, x ≠ c → t.chan x = s.chan x) ∧ t.ring = s.ring ∧ t.strands = s.strands ∧
            (∀ r, s.setup.command = .inProgress r → r.code = 1 →
              ((∀ x, x ≠ c → (s.chan x).waiting = none) →
                ((s.chan c).waiting = none ∨ (s.chan c).record.state = .inspecting) →
                  t.setup.command = .ready ∧ WordOffered 0x2000 (doneWord r) t) ∧
                ((∃ x, x ≠ c ∧ (s.chan x).waiting ≠ none) → t.setup = s.setup))) ∧
      ((s.engine.analysis ≠ none ∨ ∀ c : Chan, requests s c = false) → exec .engineGrant s = .next s)

/-- ANALYSIS_COMPLETION of a seed line: every interior column's background is the pixel and its stuck counter 0, the margin
columns keep theirs; the verdict SEED releases the trailer if it is still held; the engine becomes IDLE; the entry is
retired with its gap and unseen-after added to a cleared run. Of any other line: obscured (R53), the background, tracks and
episode are as they were, the verdict is OBSCURED, and the line counts as unseen. A warm-up line (R50) moves the background
of every unsaturated column and uses up one warm-up line. An ordinary line (R54 to R68) moves, keeps or counts each column
by the threshold; of its runs those of RW columns or more are kept, the first 64 of them, CLUTTER set where there are more
(R63); on a band line those of a peak of T + DEEPM or more go to the track table, in_mark set, on any other line all of them
(R65); a band line gives the band tracker its lowest and highest dark column, its greatest residual and D (R67). It is
counted with the verdict ANALYSED and its figures; what the track table and then the band tracker make of it, the records
and requests of their closures included, is that of `takeLine` and `takeBandOutcome`, which RunsExtendTheOldestCandidate and
OnPitchSpacingsLieNearAMultiple state. After all this a pending command of the channel is taken (R33), before another entry
reaches the head; a billet ending that an abandon expiry put off comes first (R32, log 16); a RESET_PART that waits takes
its second part (R182, log 21); an APPLY in progress stays so while a set waits (R179). (The model's: a position is by the
SCALE of the analysis's set, log 15; the BLIND test is made at every retirement, log 33; what the retired entry holds beside
FREE, log 37.) -/
def Obligations.SeedLineCompletionSeedsTheBackground : Prop :=
  (∀ (a : Analysis) (e : Fin 2) (s : State), s.engine.analysis = some a → a.role = .seed →
    (s.chan a.chan).capture.queue.head? = some e → (s.chan a.chan).record.pendingCmd = none →
      (s.chan a.chan).record.abandonDue = false → s.setup.command = .ready →
        ∃ t, exec .analysisCompletion s = .next t ∧
          t.engine = { analysis := none, lastServed := s.engine.lastServed } ∧
          (∀ x, x < heldW s →
            readStore (0, 0) (t.chan a.chan).background x =
              if a.params.chan.mLo ≤ x ∧ x < a.params.chan.mLo + (heldW s - a.params.chan.mLo - a.params.chan.mHi) then
                (256 * pixel (entryOf (s.chan a.chan).capture e) x, 0)
              else readStore (0, 0) (s.chan a.chan).background x) ∧
          (∀ x, x ≠ a.chan → t.chan x = s.chan x) ∧
          (∀ h, heldOf s a.chan e = some h →
            t.path.list = s.path.list.map fun x =>
              if x.id = h.txn then { x with held := false, body := rewriteBody h.beat (BitVec.ofNat 64 3) x.body }
              else x) ∧
          ((s.chan a.chan).capture.queue = [e] →
            (billetOpen s a.chan = false ∨
              min ((entryOf (s.chan a.chan).capture e).gap + (entryOf (s.chan a.chan).capture e).unseenAfter) 65535 ≤
                (s.chan a.chan).params.chan.maxSkip) →
            (t.chan a.chan).capture =
                { setEntry (s.chan a.chan).capture e Entry.empty with
                  queue := []
                  unseenRun :=
                    min ((entryOf (s.chan a.chan).capture e).gap + (entryOf (s.chan a.chan).capture e).unseenAfter)
                      65535 } ∧
              (t.chan a.chan).tracks = (s.chan a.chan).tracks ∧ (t.chan a.chan).band = (s.chan a.chan).band ∧
                (t.chan a.chan).record.state = (s.chan a.chan).record.state ∧
                  (t.chan a.chan).record.lastAnalysed = (s.chan a.chan).record.lastAnalysed ∧
                    (t.chan a.chan).record.warmupLeft = (s.chan a.chan).record.warmupLeft ∧
                      (t.chan a.chan).record.serial = (s.chan a.chan).record.serial)) ∧
    (∀ (a : Analysis) (c : Chan) (e : Fin 2) (en : Entry) (w : Nat) (q : ChanParams) (bg : Store (Nat × Nat)) (s : State),
      s.engine.analysis = some a → a.role ≠ .seed → c = a.chan → w = heldW s → q = a.params.chan →
        bg = (s.chan c).background → (s.chan c).capture.queue.head? = some e → en = entryOf (s.chan c).capture e →
          (s.chan c).record.pendingCmd = none → (s.chan c).record.abandonDue = false → s.setup.command = .ready →
            ∃ t, exec .analysisCompletion s = .next t ∧
              t.engine = { analysis := none, lastServed := s.engine.lastServed } ∧
              (∀ x, x ≠ c → t.chan x = s.chan x) ∧
              (ObscuredLine w q (pixel en) →
                (t.chan c).background = bg ∧
                (∀ h, heldOf s c e = some h →
                  (t.chan c).held = ((s.chan c).held.filter fun k => decide (k ≠ h)) ∧
                    t.path.list = s.path.list.map fun x =>
                      if x.id = h.txn then
                        { x with held := false, body := rewriteBody h.beat (BitVec.ofNat 64 8) x.body }
                      else x) ∧
                ((s.chan c).capture.queue = [e] →
                  NotBlind s c (min ((s.chan c).capture.unseenRun + (en.gap + 1 + en.unseenAfter)) 65535) →
                  (t.chan c).capture =
                    { setEntry (s.chan c).capture e Entry.empty with
                      queue := []
                      unseenRun := min ((s.chan c).capture.unseenRun + (en.gap + 1 + en.unseenAfter)) 65535 } ∧
                  (t.chan c).tracks = (s.chan c).tracks ∧ (t.chan c).band = (s.chan c).band ∧ t.ring = s.ring ∧
                  (t.chan c).record =
                    { (s.chan c).record with
                      warmupLeft :=
                        if a.role = .warmup then (s.chan c).record.warmupLeft - 1 else (s.chan c).record.warmupLeft
                      lastAnalysed := lastAfter (s.chan c).record.lastAnalysed (lineCount en)
                      tallies := { (s.chan c).record.tallies with
                        unseen := unseenTally s c (en.gap + 1 + en.unseenAfter) } } ∧
                  t.status.counters.get c =
                    { s.status.counters.get c with
                      obscured := min ((s.status.counters.get c).obscured + 1) 65535
                      unseen := min ((s.status.counters.get c).unseen + (en.gap + 1 + en.unseenAfter)) 65535 } ∧
                  (t.status.words.get c).latched = (s.status.words.get c).latched ||| 8)) ∧
              (¬ObscuredLine w q (pixel en) → a.role = .warmup →
                (∀ x, x < w →
                  readStore (0, 0) (t.chan c).background x =
                    if x ∈ openColumns w q (pixel en) then movedPair q (pixel en) bg x else readStore (0, 0) bg x) ∧
                (∀ h, heldOf s c e = some h →
                  (t.chan c).held = ((s.chan c).held.filter fun k => decide (k ≠ h)) ∧
                    t.path.list = s.path.list.map fun x =>
                      if x.id = h.txn then
                        { x with held := false, body := rewriteBody h.beat (BitVec.ofNat 64 4) x.body }
                      else x) ∧
                ((s.chan c).capture.queue = [e] → NotBlind s c (min (en.gap + en.unseenAfter) 65535) →
                  (t.chan c).capture =
                    { setEntry (s.chan c).capture e Entry.empty with
                      queue := []
                      unseenRun := min (en.gap + en.unseenAfter) 65535 } ∧
                  (t.chan c).tracks = (s.chan c).tracks ∧ (t.chan c).band = (s.chan c).band ∧ t.ring = s.ring ∧
                  (t.chan c).record =
                    { (s.chan c).record with
                      warmupLeft := (s.chan c).record.warmupLeft - 1
                      lastAnalysed := lastAfter (s.chan c).record.lastAnalysed (lineCount en)
                      tallies := { (s.chan c).record.tallies with
                        unseen := unseenTally s c (en.gap + en.unseenAfter) } } ∧
                  t.status.words = s.status.words ∧
                  t.status.counters.get c =
                    { s.status.counters.get c with
                      unseen := min ((s.status.counters.get c).unseen + (en.gap + en.unseenAfter)) 65535 })) ∧
              ∀ (r : LineResult) (l : LineRuns), ¬ObscuredLine w q (pixel en) → a.role = .ordinary →
                r = analyseOrdinary w q (pixel en) bg →
                l = lineRunsOf en q (position (lineCount en) (s.chan c).record.headCount a.params.strand.scale) r →
                (∀ x, x < w →
                  readStore (0, 0) (t.chan c).background x =
                    if x ∈ darkColumns w q (pixel en) bg then
                      if q.l ≤ (readStore (0, 0) bg x).2 + 1 then movedPair q (pixel en) bg x
                      else ((readStore (0, 0) bg x).1, (readStore (0, 0) bg x).2 + 1)
                    else if x ∈ openColumns w q (pixel en) then movedPair q (pixel en) bg x
                    else readStore (0, 0) bg x) ∧
                (r.flags.clampT = true ↔
                  65535 < rawThresholdOf w q (pixel en) bg ∨ 65280 < thresholdOf w q (pixel en) bg) ∧
                (r.flags.stuck = true ↔ ∃ x ∈ darkColumns w q (pixel en) bg, q.l ≤ (readStore (0, 0) bg x).2 + 1) ∧
                (r.flags.band = true ↔
                  q.bandOff = false ∧ darkColumns w q (pixel en) bg ≠ [] ∧
                    q.bf * (openColumns w q (pixel en)).length ≤ (darkColumns w q (pixel en) bg).length * 256) ∧
                (r.flags.deep = true ↔ r.flags.band = true ∧ r.fed ≠ []) ∧
                (r.flags.clutter = true ↔ 64 < (wideRunsOf w q (pixel en) bg).length) ∧
                (r.flags.band = false → r.fed = (wideRunsOf w q (pixel en) bg).take 64 ∧ r.band = none) ∧
                (r.flags.band = true →
                  r.fed =
                      (((wideRunsOf w q (pixel en) bg).take 64).filter fun u =>
                        decide (thresholdOf w q (pixel en) bg + q.deepM ≤ u.peak)).map
                        (fun u => { u with inMark := true }) ∧
                    ∃ d, r.band = some d ∧ SummaryOf w q (pixel en) bg d) ∧
                (∀ h, heldOf s c e = some h →
                  (t.chan c).held = ((s.chan c).held.filter fun k => decide (k ≠ h)) ∧
                    t.path.list = s.path.list.map fun x =>
                      if x.id = h.txn then
                        { x with
                          held := false
                          body :=
                            rewriteBody h.beat
                              (analysedWord r.flags r.fed.length
                                ((takeLine c a.params l s).chan c).tracks.length
                                (darkColumns w q (pixel en) bg).length (thresholdOf w q (pixel en) bg))
                              x.body }
                      else x) ∧
                ((s.chan c).capture.queue = [e] → NotBlind s c (min (en.gap + en.unseenAfter) 65535) →
                  (t.chan c).capture =
                    { setEntry (s.chan c).capture e Entry.empty with
                      queue := []
                      unseenRun := min (en.gap + en.unseenAfter) 65535 } ∧
                  (t.chan c).record.state = (s.chan c).record.state ∧
                  (t.chan c).record.billet = (s.chan c).record.billet ∧
                  (t.chan c).record.headCount = (s.chan c).record.headCount ∧
                  (t.chan c).record.warmupLeft = (s.chan c).record.warmupLeft ∧
                  (t.chan c).record.lastAnalysed = lastAfter (s.chan c).record.lastAnalysed (lineCount en) ∧
                  (t.chan c).record.tallies.analysed = min ((s.chan c).record.tallies.analysed + 1) 65535 ∧
                  (t.chan c).record.tallies.unseen = unseenTally s c (en.gap + en.unseenAfter) ∧
                  (t.status.counters.get c).analysed = min ((s.status.counters.get c).analysed + 1) 65535 ∧
                  (t.status.counters.get c).unseen =
                    min ((s.status.counters.get c).unseen + (en.gap + en.unseenAfter)) 65535 ∧
                  (t.status.counters.get c).obscured = (s.status.counters.get c).obscured ∧
                  (r.flags.stuck = true → (t.status.words.get c).latched.getLsbD 7 = true) ∧
                  (r.flags.clutter = true → (t.status.words.get c).latched.getLsbD 6 = true) ∧
                  ∀ u : State, u = takeBandOutcome c a.params l.count l.pos r.band (takeLine c a.params l s) →
                    (t.chan c).tracks = (u.chan c).tracks ∧ (t.chan c).band = (u.chan c).band ∧ t.ring = u.ring ∧
                      t.strands = u.strands ∧ (t.chan c).record.serial = (u.chan c).record.serial ∧
                      (t.chan c).record.tallies =
                        { (u.chan c).record.tallies with
                          analysed := (t.chan c).record.tallies.analysed
                          unseen := (t.chan c).record.tallies.unseen } ∧
                      t.status.partCounters = u.status.partCounters ∧
                      t.status.part.latched = u.status.part.latched ∧
                      (t.status.counters.get c).trackFull = (u.status.counters.get c).trackFull ∧
                      (t.status.counters.get c).discarded = (u.status.counters.get c).discarded ∧
                      (t.status.words.get c).latched.getLsbD 5 = (u.status.words.get c).latched.getLsbD 5)) ∧
    ∀ (a : Analysis) (c : Chan) (e : Fin 2) (s : State), s.engine.analysis = some a → c = a.chan →
      (s.chan c).capture.queue.head? = some e →
        ∃ t u, exec .analysisCompletion s = .next t ∧ exec .analysisCompletion (completingAlone c e s) = .next u ∧
          (∀ (k : ChanCommand) (r : Running), (s.chan c).record.pendingCmd = some k →
            (s.chan c).record.abandonDue = false → s.setup.command = .inProgress r → 2 ≤ r.code.toNat →
              r.code.toNat ≤ 6 → watches s c = true →
                ((s.chan c).capture.queue = [e] ∨ (k ≠ .start ∧ k ≠ .startReplay) →
                  TakenByWatching k c u t ∧ (∀ x, x ≠ c → t.chan x = s.chan x) ∧ t.engine = u.engine) ∧
                (k ≠ .start → k ≠ .startReplay → TrailersAborted (fun x => x = c) u t) ∧
                (k = .restart → t.ring = u.ring ∧ MarksRemoved (fun x => decide (x = c)) u t) ∧
                ((k = .stop ∨ k = .isolate) → billetOpen s c = true → EndsInTheQueue u c →
                  BilletEnded (u.chan c).params (u.chan c).band.effPitch .stopped .stopped c u t u.ring) ∧
                (∀ r', (r' = if k = .start ∨ k = .startReplay then { r with isPartial := true } else r) →
                  ((∀ x, x ≠ c → (s.chan x).record.pendingCmd = none) →
                    t.setup.command = .ready ∧ WordOffered 0x2000 (doneWord r') t) ∧
                  ((∃ x, x ≠ c ∧ (s.chan x).record.pendingCmd ≠ none) → t.setup.command = .inProgress r'))) ∧
          ((s.chan c).record.pendingCmd = none → (s.chan c).record.abandonDue = true → s.setup.command = .ready →
            (s.chan c).capture.queue = [e] → billetOpen s c = true →
              ∀ ch : Channel, (ch = if (u.chan c).record.state = .inspecting then switched (u.chan c) else u.chan c) →
                (t.chan c).record.state = .waiting ∧ (t.chan c).record.stall = none ∧
                (t.chan c).record.abandon = none ∧ (t.chan c).record.abandonDue = false ∧
                (t.chan c).record.billet = (s.chan c).record.billet ∧ (t.chan c).tracks = [] ∧
                (t.chan c).band.episode.state = .absent ∧ (t.chan c).capture = (u.chan c).capture ∧
                (t.chan c).background = (u.chan c).background ∧ (t.chan c).params = ch.params ∧
                (∀ x, x ≠ c → t.chan x = s.chan x) ∧ t.path.list = u.path.list ∧ t.engine = u.engine ∧
                (t.status.words.get c).latched = (u.status.words.get c).latched ||| 512 ∧
                (EndsInTheQueue u c →
                  BilletEnded ch.params ch.band.effPitch .abandoned .abandoned c u t u.ring)) ∧
          (∀ r, s.setup.command = .inProgress r → (s.chan c).record.pendingCmd = none →
            (s.chan c).record.abandonDue = false →
              (r.code = 8 → s.ring.resetWait = false → BlocksReset u t ∧ t.setup.command = .inProgress r) ∧
              (r.code = 1 → (s.chan c).capture.queue = [e] → (∃ x, (s.chan x).waiting ≠ none) →
                t = { u with setup := { u.setup with command := .inProgress r } }))

/-- HOLD_TIMER_EXPIRY: a trailer held for its HOLD_US leaves with PENDING, counted, HOLD_EXPIRED set; the line, its entry
and its analysis are as they were. Before that the expiry does not happen (log 5). -/
def Obligations.HoldExpiryReleasesTheTrailerPending : Prop :=
  ∀ (c : Chan) (e : Fin 2) (h : HeldTrailer) (s : State), heldOf s c e = some h →
    (h.length ≤ (s.us - h.start).toNat →
      ∃ t, exec (.holdTimerExpiry c e) s = .next t ∧
        t.chan c = { s.chan c with held := (s.chan c).held.filter fun k => decide (k ≠ h) } ∧
        (∀ x, x ≠ c → t.chan x = s.chan x) ∧ t.engine = s.engine ∧ t.ring = s.ring ∧
        (t.path.list = s.path.list.map fun x =>
          if x.id = h.txn then { x with held := false, body := rewriteBody h.beat (BitVec.ofNat 64 2) x.body } else x) ∧
        t.status.counters.get c =
          { s.status.counters.get c with pending := min ((s.status.counters.get c).pending + 1) 65535 } ∧
        (t.status.words.get c).latched = (s.status.words.get c).latched ||| 16) ∧
      ((s.us - h.start).toNat < h.length → exec (.holdTimerExpiry c e) s = .next s)

/-- STALL_TIMER_EXPIRY in INSPECTING: the channel becomes STALLED, its abandon timer starts, STALL is latched; a waiting set
becomes current first (log 19), and where it is the last that an APPLY in progress waits for, the APPLY ends DONE in the same
act (R179). Before its time the expiry does nothing (log 5, the model's). -/
def Obligations.StallExpiryStallsTheChannel : Prop :=
  ∀ (c : Chan) (tm : MsTimer) (s : State), (s.chan c).record.state = .inspecting → (s.chan c).record.stall = some tm →
    (tm.length ≤ (s.ms - tm.start).toNat →
      ∃ t, exec (.stallTimerExpiry c) s = .next t ∧ (t.chan c).params = (s.chan c).waiting.getD (s.chan c).params ∧
        (t.chan c).waiting = none ∧
        (t.chan c).record =
          { (s.chan c).record with
            state := .stalled
            stall := none
            abandon := some
              { start := s.ms, length := 1000 * ((s.chan c).waiting.getD (s.chan c).params).chan.abandonS } } ∧
        (t.chan c).capture = (s.chan c).capture ∧ (t.chan c).tracks = (s.chan c).tracks ∧
        (t.chan c).held = (s.chan c).held ∧ (t.chan c).background = (s.chan c).background ∧
        (∀ x, x ≠ c → t.chan x = s.chan x) ∧ t.ring = s.ring ∧
        (t.status.words.get c).latched = (s.status.words.get c).latched ||| 256 ∧
        ∀ r, s.setup.command = .inProgress r → r.code = 1 →
          ((∀ x, x ≠ c → (s.chan x).waiting = none) →
            t.setup.command = .ready ∧ WordOffered 0x2000 (doneWord r) t) ∧
          ((∃ x, x ≠ c ∧ (s.chan x).waiting ≠ none) → t.setup = s.setup)) ∧
      ((s.ms - tm.start).toNat < tm.length → exec (.stallTimerExpiry c) s = .next s)

/-- ABANDON_TIMER_EXPIRY in STALLED: the billet is given up, its tracks handed to the classifier with cause ABANDONED, its
episode closed, its BILLET record produced with the flag ABANDONED, ABANDONED latched; a BILLET record that finds 64 queued is
lost (R131). While an analysis of the channel is in flight it waits for the completion, where the billet then ends
(SeedLineCompletionSeedsTheBackground). That the
channel stays STALLED meanwhile, with the expiry remembered, is log 16's (DEDUCED), and that the expiry does nothing before its
time log 5's: the model's. -/
def Obligations.AbandonExpiryGivesUpTheBillet : Prop :=
  ∀ (c : Chan) (tm : MsTimer) (s : State), (s.chan c).record.state = .stalled → (s.chan c).record.abandon = some tm →
    (tm.length ≤ (s.ms - tm.start).toNat → inFlight s c = false → (s.chan c).capture.queue = [] →
      ∃ t, exec (.abandonTimerExpiry c) s = .next t ∧ (t.chan c).record.state = .waiting ∧
        (t.chan c).record.stall = none ∧ (t.chan c).record.abandon = none ∧ (t.chan c).record.abandonDue = false ∧
        (t.chan c).record.billet = (s.chan c).record.billet ∧
        (t.chan c).record.headCount = (s.chan c).record.headCount ∧
        (t.chan c).record.lastAnalysed = (s.chan c).record.lastAnalysed ∧ (t.chan c).tracks = [] ∧
        (t.chan c).band.episode.state = .absent ∧ (t.chan c).capture = (s.chan c).capture ∧
        (t.chan c).held = (s.chan c).held ∧ (t.chan c).background = (s.chan c).background ∧
        (∀ x, x ≠ c → t.chan x = s.chan x) ∧
        (t.status.words.get c).latched = (s.status.words.get c).latched ||| 512 ∧
        (EndsInTheQueue s c →
          BilletEnded (s.chan c).params (s.chan c).band.effPitch .abandoned .abandoned c s t s.ring) ∧
        ((s.chan c).tracks = [] → (s.chan c).band.episode.state = .absent → 64 ≤ s.ring.queue.length →
          t.ring = lostRing s.ms s.ring ∧ (t.chan c).record.tallies = (s.chan c).record.tallies ∧
            t.status.partCounters =
              { s.status.partCounters with recordsLost := min (s.status.partCounters.recordsLost + 1) 65535 } ∧
            t.status.part.latched = s.status.part.latched ||| 4)) ∧
      (tm.length ≤ (s.ms - tm.start).toNat → inFlight s c = true →
        ∃ t, exec (.abandonTimerExpiry c) s = .next t ∧
          t.chan c =
            { s.chan c with record := { (s.chan c).record with abandon := none, abandonDue := true } } ∧
          (∀ x, x ≠ c → t.chan x = s.chan x) ∧ t.ring = s.ring ∧ t.status = s.status) ∧
      ((s.ms - tm.start).toNat < tm.length → exec (.abandonTimerExpiry c) s = .next s)

/-! ## The host's commands -/

/-- APPLY past its checks: geometry is taken where none is held and kept otherwise; every channel but an INSPECTING one takes
its clamped set and recomputes its pitch, an INSPECTING one lets it wait; strands, ring writer and status unit take theirs;
with no set waiting the command ends DONE with its flags and clamped-field count. -/
def Obligations.ApplyTakesTheStagedSettings : Prop :=
  ∀ (tag : Byte) (mask : BitVec 16) (s : State), Accepting s → s.setup.command = .ready →
    wfStore 0 s.setup.staged = true → (∀ c : Chan, (s.chan c).waiting = none) →
      (s.setup.geometry = none → failedCheck s.setup.strap (stagedGeometry s.setup.staged) = none) →
        ∃ t, exec (.apply tag mask) s = .next t ∧
          (∀ k : Nat,
            readStore 0 t.setup.staged k =
              if 0x140 ≤ k ∧ k < 0x148 then
                ([1, 0, tag, BitVec.ofNat 8 mask.toNat, BitVec.ofNat 8 (mask.toNat / 256), 0, 0, 0][k - 0x140]?).getD 0
              else readStore 0 s.setup.staged k) ∧
          t.setup.geometry = some (s.setup.geometry.getD (stagedGeometry s.setup.staged)) ∧
          (s.setup.geometry = none →
            t.ring.slots =
                { state := .filling, places := 0 } ::
                  List.replicate ((stagedGeometry s.setup.staged).s - 1) { state := .free, places := 0 } ∧
              t.ring.fill = .filling 0 ∧ t.ring.index = 0 ∧ WordOffered 0x2010 (zeros 8) t) ∧
          (∀ c : Chan,
            if (s.chan c).record.state = .inspecting then
              t.chan c = { s.chan c with waiting := some (clampedSet (heldW t) t.setup.staged c) }
            else
              t.chan c =
                { s.chan c with
                  params := clampedSet (heldW t) t.setup.staged c
                  band := { (s.chan c).band with
                    effPitch :=
                      effectivePitch (clampedSet (heldW t) t.setup.staged c).chan (s.chan c).band.pitchRing } }) ∧
          (∀ k : Strand,
            (t.strands.get k).pulseMs =
                (clampStrand (stagedStrand t.setup.staged (strandSectionAt k.val))).pulseMs ∧
              (t.strands.get k).lifeS = (clampStrand (stagedStrand t.setup.staged (strandSectionAt k.val))).lifeS ∧
                (t.strands.get k).queue = (s.strands.get k).queue ∧
                  (if (clampStrand (stagedStrand t.setup.staged (strandSectionAt k.val))).merge ≤
                        (s.strands.get k).merge ∨ (s.strands.get k).queue = [] then
                    (t.strands.get k).merge = (clampStrand (stagedStrand t.setup.staged (strandSectionAt k.val))).merge ∧
                      (t.strands.get k).mergeHeld = none
                  else
                    (t.strands.get k).merge = (s.strands.get k).merge ∧
                      (t.strands.get k).mergeHeld =
                        some (clampStrand (stagedStrand t.setup.staged (strandSectionAt k.val))).merge)) ∧
          t.ring.batchAge = (clampPart (stagedPart t.setup.staged)).batchAge ∧
          t.ring.flushOnTail = (stagedPart t.setup.staged).flushOnTail ∧ t.ring.queue = s.ring.queue ∧
          t.status.maskChan = (stagedPart t.setup.staged).maskChan ∧
          t.status.maskPart = (stagedPart t.setup.staged).maskPart ∧
          t.status.code = (clampPart (stagedPart t.setup.staged)).code ∧
          t.status.snapshot = snapshotTimer s.ms (clampPart (stagedPart t.setup.staged)).code ∧ t.engine = s.engine ∧
          ((∃ c : Chan, (s.chan c).record.state = .inspecting) →
            ∃ r, t.setup.command = .inProgress r ∧ r.tag = tag ∧ r.code = 1) ∧
          ((∀ c : Chan, (s.chan c).record.state ≠ .inspecting) →
            t.setup.command = .ready ∧
              WordOffered 0x2000
                (statusWord tag 1 1
                  ((if clampedCount (heldW t) t.setup.staged = 0 then 0 else 2) +
                    (if s.setup.geometry.getD (stagedGeometry s.setup.staged) = stagedGeometry s.setup.staged then 0
                      else 4))
                  0 (min (clampedCount (heldW t) t.setup.staged) 65535))
                t)

/-- APPLY before geometry is held whose geometry section fails a check ends REFUSED_INVALID with the first failing check's
number and changes nothing else. -/
def Obligations.ApplyIsRefusedByItsFirstFailingCheck : Prop :=
  ∀ (tag : Byte) (mask : BitVec 16) (i : Nat) (s : State), Accepting s → s.setup.command = .ready →
    wfStore 0 s.setup.staged = true → s.setup.geometry = none →
      failedCheck s.setup.strap (stagedGeometry s.setup.staged) = some i →
        ∃ t, exec (.apply tag mask) s = .next t ∧ SameBlocks s t ∧ t.setup.command = .ready ∧
          WordOffered 0x2000 (statusWord tag 1 3 0 (BitVec.ofNat 8 i) 0) t

/-- START and START_REPLAY, taken at once: each masked channel that is OFF becomes WAITING in the command's mode with its
counters and pitch ring cleared; any other is as it was and makes the DONE show PARTIAL; a channel outside the mask is not
touched. -/
def Obligations.StartBringsOffChannelsToWaiting : Prop :=
  ∀ (i : Instr) (code : Byte) (mode : Mode) (tag : Byte) (mask : BitVec 16) (s : State),
    ((i = .start tag mask ∧ code = 2 ∧ mode = .live) ∨ (i = .startReplay tag mask ∧ code = 3 ∧ mode = .replay)) →
      TakenAtOnce mask s →
        ∃ t, exec i s = .next t ∧
          (∀ c : Chan,
            if mask.getLsbD c.val = true ∧ (s.chan c).record.state = .off then
              t.chan c =
                  { s.chan c with
                    record := { (s.chan c).record with state := .waiting, mode := mode }
                    band := { (s.chan c).band with
                      pitchRing := [], effPitch := effectivePitch (s.chan c).params.chan [] } } ∧
                t.status.counters.get c = ChanCounters.zero
            else t.chan c = s.chan c ∧ t.status.counters.get c = s.status.counters.get c) ∧
          t.ring = s.ring ∧ t.strands = s.strands ∧ t.engine = s.engine ∧ t.setup.command = .ready ∧
          ((∀ c : Chan, mask.getLsbD c.val = true → (s.chan c).record.state = .off) →
            WordOffered 0x2000 (statusWord tag code 1 0 0 0) t) ∧
          ((∃ c : Chan, mask.getLsbD c.val = true ∧ (s.chan c).record.state ≠ .off) →
            WordOffered 0x2000 (statusWord tag code 1 1 0 0) t)

/-- STOP and ISOLATE, taken at once: each masked channel that watches a window is torn down into OFF or PASS_ONLY: its tracks
handed to the classifier with cause STOPPED, its episode closed, its BILLET record produced, its held trailers released with
ABORTED (R21), its capture dropped, its marks removed and counted as discarded (R153), those that the closures requested with
them, its timers stopped.
(What a FREE entry holds beside R4's values: log 37.) -/
def Obligations.StopAndIsolateTearTheChannelDown : Prop :=
  ∀ (i : Instr) (code : Byte) (into : ChanState) (tag : Byte) (mask : BitVec 16) (s : State),
    ((i = .stop tag mask ∧ code = 4 ∧ into = .off) ∨ (i = .isolate tag mask ∧ code = 5 ∧ into = .passOnly)) →
      TakenAtOnce mask s →
        ∃ t, exec i s = .next t ∧ t.setup.command = .ready ∧ WordOffered 0x2000 (statusWord tag code 1 0 0 0) t ∧
          t.engine = s.engine ∧
          (∀ c : Chan, mask.getLsbD c.val = false → t.chan c = s.chan c) ∧
          (∀ c : Chan, mask.getLsbD c.val = true → (s.chan c).record.state = into → t.chan c = s.chan c) ∧
          (∀ c : Chan, mask.getLsbD c.val = true → (s.chan c).record.state = .passOnly → into = .off →
            t.chan c = { s.chan c with record := { (s.chan c).record with state := .off } }) ∧
          (∀ c : Chan, mask.getLsbD c.val = true →
            (Watching s c ∨ ((s.chan c).record.state = .off ∧ into = .passOnly)) →
              TornDown into c s t) ∧
          TrailersAborted
            (fun c =>
              mask.getLsbD c.val = true ∧ (Watching s c ∨ ((s.chan c).record.state = .off ∧ into = .passOnly))) s t ∧
          (∀ c : Chan, mask = BitVec.ofNat 16 (2 ^ c.val) → billetOpen s c = true → EndsInTheQueue s c →
            BilletEnded (s.chan c).params (s.chan c).band.effPitch .stopped .stopped c s t s.ring) ∧
          (∀ c : Chan, mask = BitVec.ofNat 16 (2 ^ c.val) → Watching s c →
            ((s.chan c).band.episode.state = .absent ∨ (s.chan c).band.prevCentre = none) →
              MarksRemoved (fun d => decide (d = c))
                (handedOver c (s.chan c).params .stopped (s.chan c).tracks s) t) ∧
          ∀ torn : Chan → Bool,
            (∀ c, torn c = (mask.getLsbD c.val && (watches s c || (decide ((s.chan c).record.state = .off) &&
              decide (into = .passOnly))))) →
              (∀ c, torn c = true → (s.chan c).tracks = [] ∧ (s.chan c).band.episode.state = .absent) →
                MarksRemoved torn s t

/-- RESTART, taken at once: each masked channel that is not OFF returns to WAITING in its mode with a clean slate, its
billet number kept, its held trailers released with ABORTED (R21), its marks removed and counted as discarded (R153), and
produces no record; one that is OFF stays so and makes the DONE show PARTIAL. (What a FREE entry holds beside R4's values:
log 37.) -/
def Obligations.RestartReturnsTheChannelToWaiting : Prop :=
  ∀ (tag : Byte) (mask : BitVec 16) (s : State), TakenAtOnce mask s →
    ∃ t, exec (.restart tag mask) s = .next t ∧ t.setup.command = .ready ∧ t.ring = s.ring ∧ t.engine = s.engine ∧
      (∀ c : Chan,
        if mask.getLsbD c.val = true ∧ (s.chan c).record.state ≠ .off then
          t.chan c = restarted (s.chan c) ∧
            t.status.counters.get c = ChanCounters.zero ∧
              ∀ m ∈ (t.strands.get (strandOf c)).queue, m.chan ≠ c
        else t.chan c = s.chan c ∧ t.status.counters.get c = s.status.counters.get c) ∧
      (∀ c : Chan, mask.getLsbD c.val = true → (s.chan c).record.state ≠ .off →
        ∀ h ∈ (s.chan c).held, ∀ x ∈ t.path.list, x.id = h.txn → x.held = false) ∧
      TrailersAborted (fun c => mask.getLsbD c.val = true ∧ (s.chan c).record.state ≠ .off) s t ∧
      MarksRemoved (fun c => mask.getLsbD c.val && decide ((s.chan c).record.state ≠ .off)) s t ∧
      ((∀ c : Chan, mask.getLsbD c.val = true → (s.chan c).record.state ≠ .off) →
        WordOffered 0x2000 (statusWord tag 6 1 0 0 0) t) ∧
      ((∃ c : Chan, mask.getLsbD c.val = true ∧ (s.chan c).record.state = .off) →
        WordOffered 0x2000 (statusWord tag 6 1 1 0 0) t)

/-- A channel command that reaches a channel with an analysis in flight becomes its pending command; the command stays in
progress. (What the channel does with it at the completion: SeedLineCompletionSeedsTheBackground.) -/
def Obligations.CommandsWaitForTheAnalysisInFlight : Prop :=
  ∀ (i : Instr) (code tag : Byte) (mask : BitVec 16) (k : ChanCommand) (c : Chan) (s : State),
    commandOf i = some (code, tag, mask) → chanCommandOf code = some k → CommandTaken s →
      mask.getLsbD c.val = true → inFlight s c = true →
        ∃ t, exec i s = .next t ∧
          t.chan c = { s.chan c with record := { (s.chan c).record with pendingCmd := some k } } ∧
            t.engine = s.engine ∧ ∃ r, t.setup.command = .inProgress r ∧ r.tag = tag ∧ r.code = code

/-- FLUSH: the request is kept as the flush pending flag where the ring is blocked or records await release, and discarded
otherwise; DONE at once either way. -/
def Obligations.FlushKeepsOrDiscardsTheRequest : Prop :=
  ∀ (tag : Byte) (mask : BitVec 16) (s : State), CommandTaken s → s.ring.resetWait = false →
    ∃ t, exec (.flush tag mask) s = .next t ∧ t.chans = s.chans ∧ t.engine = s.engine ∧ t.strands = s.strands ∧
      t.status = s.status ∧ t.setup.command = .ready ∧ WordOffered 0x2000 (statusWord tag 7 1 0 0 0) t ∧
      (((∃ i, s.ring.fill = .blocked i) ∨ s.ring.queue ≠ [] ∨
          ∃ i, s.ring.fill = .filling i ∧ 1 ≤ placesOf s.ring i ∧ placesOf s.ring i < heldB s) →
        t.ring = { s.ring with flushPending := true }) ∧
      ((∀ i, s.ring.fill ≠ .blocked i) → s.ring.queue = [] →
        (∀ i, s.ring.fill = .filling i → placesOf s.ring i = 0 ∨ heldB s ≤ placesOf s.ring i) → t.ring = s.ring)

/-- RESET_PART with no analysis in flight: in one act every channel goes OFF with its record reset and its parameters kept,
trailers are released with ABORTED (R21), tables, episodes, rings and mark queues emptied, conditions and counters cleared
but for the RING_BLOCKED of a blocked ring, and the ring writer stops until it takes the command. With one in flight the
command waits for it (and goes on at the completion: SeedLineCompletionSeedsTheBackground). (What a FREE entry holds beside
R4's values: log 37.) -/
def Obligations.ResetPartResetsEveryBlock : Prop :=
  ∀ (tag : Byte) (mask : BitVec 16) (s : State), CommandTaken s →
    (s.engine.analysis = none →
      ∃ t, exec (.resetPart tag mask) s = .next t ∧
        BlocksReset s t ∧
        ∃ r, t.setup.command = .inProgress r ∧ r.tag = tag ∧ r.code = 8) ∧
      (s.engine.analysis ≠ none →
        ∃ t, exec (.resetPart tag mask) s = .next t ∧ SameBlocks s t ∧
          ∃ r, t.setup.command = .inProgress r ∧ r.tag = tag ∧ r.code = 8)

/-- R174's tests in their order: a code that is none of the eight ends REFUSED_UNKNOWN with its tag and code as written; a
code 2 to 8 before geometry is held ends REFUSED_NO_GEOMETRY; a command that takes a mask, 2 to 6, with geometry held and a
mask of 0 ends REFUSED_INVALID with check index 0. Nothing else of the part changes. -/
def Obligations.UnknownCodesAreRefusedUnknown : Prop :=
  (∀ (code tag : Byte) (mask : BitVec 16) (s : State), Accepting s → s.setup.command = .ready →
    wfStore 0 s.setup.staged = true → (code.toNat = 0 ∨ 8 < code.toNat) →
      ∃ t, exec (.unknownCommand code tag mask) s = .next t ∧ SameBlocks s t ∧ t.setup.command = .ready ∧
        WordOffered 0x2000 (statusWord tag code 4 0 0 0) t) ∧
    ∀ (i : Instr) (code tag : Byte) (mask : BitVec 16) (s : State), commandOf i = some (code, tag, mask) → Accepting s →
      s.setup.command = .ready → wfStore 0 s.setup.staged = true →
        (2 ≤ code.toNat → code.toNat ≤ 8 → s.setup.geometry = none →
          ∃ t, exec i s = .next t ∧ SameBlocks s t ∧ t.setup.command = .ready ∧
            WordOffered 0x2000 (statusWord tag code 5 0 0 0) t) ∧
          (2 ≤ code.toNat → code.toNat ≤ 6 → s.setup.geometry ≠ none → mask = 0 →
            ∃ t, exec i s = .next t ∧ SameBlocks s t ∧ t.setup.command = .ready ∧
              WordOffered 0x2000 (statusWord tag code 3 0 0 0) t)

/-- A command that starts while another is in progress is refused with REFUSED_BUSY; the running one is not disturbed. -/
def Obligations.CommandsInProgressRefuseOthersBusy : Prop :=
  ∀ (i : Instr) (code tag : Byte) (mask : BitVec 16) (r : Running) (s : State),
    commandOf i = some (code, tag, mask) → Accepting s → wfStore 0 s.setup.staged = true →
      s.setup.command = .inProgress r → commandDone r s = false →
        ∃ t, exec i s = .next t ∧ SameBlocks s t ∧ t.setup.command = .inProgress r ∧
          WordOffered 0x2000 (statusWord tag code 2 0 0 0) t

/-! ## The ring writer -/

/-- RECORD_PLACEMENT: the head record takes the next place of the FILLING slot as a RECORD write of its 32 bytes; with a
loss episode open its GAP record takes the freed entry; the batch age timer starts at place 0 and stops at place B − 1. -/
def Obligations.RecordPlacementWritesTheHeadRecord : Prop :=
  ∀ (i : Nat) (r : Record) (q : List Record) (g : Geometry) (s : State), s.setup.geometry = some g →
    s.ring.fill = .filling i → placesOf s.ring i < g.b → s.ring.resetWait = false → s.path.queue.length < 24 →
      s.ring.queue = r :: q →
        exec .recordPlacement s =
          .next
            { s with
              path := { s.path with
                queue := s.path.queue ++
                  [{ kind := .record
                     addr := g.ringBase + i * g.b * 32 + placesOf s.ring i * 32
                     data := recordBytes r }] }
              ring := { s.ring with
                queue :=
                  q ++
                    match s.ring.loss with
                    | none => []
                    | some l => [.gap l.count l.first l.last]
                loss := none
                slots := s.ring.slots.set i { state := .filling, places := placesOf s.ring i + 1 }
                outstanding := s.ring.outstanding + 1
                age :=
                  if placesOf s.ring i + 1 = g.b then none
                  else if placesOf s.ring i = 0 ∧ s.ring.batchAge ≠ 0 then
                    some { start := s.ms, length := 10 * s.ring.batchAge }
                  else s.ring.age } }

/-- FLUSH_APPLY: a pending flush assigns every remaining place of the FILLING slot to a FILLER record; with room they are
written in ascending place order, without they await admission. -/
def Obligations.FlushApplyFillsTheSlot : Prop :=
  ∀ (i : Nat) (g : Geometry) (s : State), s.setup.geometry = some g → s.ring.fill = .filling i →
    s.ring.flushPending = true → s.ring.queue = [] → 1 ≤ placesOf s.ring i → placesOf s.ring i < g.b →
      s.ring.resetWait = false →
        (s.path.queue.length + (g.b - placesOf s.ring i) ≤ 24 →
          exec .flushApply s =
            .next
              { s with
                path := { s.path with
                  queue := s.path.queue ++
                    (List.range (g.b - placesOf s.ring i)).map fun m =>
                      { kind := .record
                        addr := g.ringBase + i * g.b * 32 + (placesOf s.ring i + m) * 32
                        data := 4 :: zeros 31 } }
                ring := { s.ring with
                  slots := s.ring.slots.set i { state := .filling, places := g.b }
                  flushPending := false
                  age := none
                  fillers := 0
                  outstanding := s.ring.outstanding + (g.b - placesOf s.ring i) } }) ∧
          (24 ≤ s.path.queue.length →
            exec .flushApply s =
              .next
                { s with
                  ring := { s.ring with
                    slots := s.ring.slots.set i { state := .filling, places := g.b }
                    flushPending := false
                    age := none
                    fillers := g.b - placesOf s.ring i } })

/-- RING_RESET_PART_TAKE: once every RECORD write is answered the ring writer is as after a fresh geometry, the ring index
word is written with 0, the start-up record is written with cause COMMAND, and the command ends DONE. That RING_BLOCKED is
removed from the latched set at the take is log 22's (DEDUCED): R184 keeps it while it is present, and after the take the ring
is no longer blocked. -/
def Obligations.RingTakesResetPart : Prop :=
  ∀ (r : Running) (s : State), s.ring.resetWait = true → s.ring.outstanding = 0 → s.setup.command = .inProgress r →
    ∃ t, exec .ringResetPartTake s = .next t ∧
      t.ring =
        { Ring.initial with
          slots :=
            { state := .filling, places := 0 } ::
              List.replicate (s.ring.slots.length - 1) { state := .free, places := 0 }
          fill := .filling 0
          batchAge := s.ring.batchAge
          flushOnTail := s.ring.flushOnTail } ∧
      t.chans = s.chans ∧ t.status.resets = min (s.status.resets + 1) 65535 ∧
      t.status.part.latched = s.status.part.latched &&& ~~~(2 : BitVec 16) ∧ t.setup.command = .ready ∧
      WordOffered 0x2010 (zeros 8) t ∧
      WordOffered 0x2100 (startUpBytes 3 s.setup.strap (min (s.status.resets + 1) 65535)) t ∧
      WordOffered 0x2000
        (commandStatusWord r.tag r.code .done r.isPartial (decide (1 ≤ r.clamped)) r.geometryHeld 0 r.clamped) t

/-- BATCH_AGE_EXPIRY: the timer that has run out stops and makes a flush request, kept where the ring is blocked or records
await release. Where the B-th record can be placed at that moment the request finds the slot full, and is kept only if the
queue holds another record (that such an expiry is the one taken first is log 36's). Before its time the expiry does nothing
(log 5, the model's). -/
def Obligations.BatchAgeExpiryAsksForAFlush : Prop :=
  ∀ (tm : MsTimer) (s : State), s.ring.age = some tm →
    (tm.length ≤ (s.ms - tm.start).toNat → s.ring.resetWait = false →
      (∀ i, s.ring.fill = .filling i → placesOf s.ring i + 1 = heldB s →
        s.ring.queue = [] ∨ 24 ≤ s.path.queue.length) →
      exec .batchAgeExpiry s =
        .next
          { s with
            ring := { s.ring with
              age := none
              flushPending :=
                s.ring.flushPending || ringBlocked s.ring || recordsAwait (heldB s) s.ring } }) ∧
      (∀ (i : Nat) (r : Record) (q : List Record), tm.length ≤ (s.ms - tm.start).toNat → s.ring.resetWait = false →
        s.ring.fill = .filling i → placesOf s.ring i + 1 = heldB s → s.ring.queue = r :: q →
          s.path.queue.length < 24 →
            exec .batchAgeExpiry s =
              .next
                { s with
                  ring := { s.ring with
                    age := none
                    flushPending := s.ring.flushPending || !q.isEmpty || s.ring.loss.isSome } }) ∧
      ((s.ms - tm.start).toNat < tm.length → exec .batchAgeExpiry s = .next s)

/-! ## The mark scheduler -/

/-- PULSE_END: the millisecond count has reached the end of an ACTIVE pulse, which becomes IDLE; nothing else changes. Before
the pulse's end nothing happens (log 5, the model's). -/
def Obligations.PulseEndsAtItsEnd : Prop :=
  ∀ (k : Strand) (e : Word32) (s : State), (s.strands.get k).pulse = some e →
    ((s.ms - e).toNat < 2147483648 →
      exec (.pulseEnd k) s =
        .next { s with strands := s.strands.set k { s.strands.get k with pulse := none } }) ∧
      (2147483648 ≤ (s.ms - e).toNat → exec (.pulseEnd k) s = .next s)

/-- MARK_EXPIRY: an entry that has reached its expiry time leaves its strand's queue, counted, MARK_EXPIRED set; the pulse,
the last count and the other strands are as they were. -/
def Obligations.ExpiredMarksLeaveTheQueue : Prop :=
  ∀ (k : Strand) (m : Mark) (s : State), m ∈ (s.strands.get k).queue → (s.ms - m.expiry).toNat < 2147483648 →
    ∃ t, exec (.markExpiry k m.trigger) s = .next t ∧
      (t.strands.get k).queue =
        ((s.strands.get k).queue.filter fun x =>
          !(decide (x.trigger = m.trigger) && decide ((s.ms - x.expiry).toNat < 2147483648))) ∧
      (t.strands.get k).lastCount = (s.strands.get k).lastCount ∧
      (t.strands.get k).pulse = (s.strands.get k).pulse ∧ (∀ j, j ≠ k → t.strands.get j = s.strands.get j) ∧
      t.chans = s.chans ∧ t.ring = s.ring ∧
      t.status.partCounters =
        { s.status.partCounters with marksExpired := min (s.status.partCounters.marksExpired + 1) 65535 } ∧
      t.status.part.latched = s.status.part.latched ||| 32 ∧ t.status.words = s.status.words

/-- R148: a mark request is LATE, MERGED, DROPPED or SCHEDULED by the first test that holds, with the effect of each. -/
def Obligations.MarkRequestsAreAnsweredInOrder : Prop :=
  ∀ (c : Chan) (trigger n : Word32) (s : State), (s.strands.get (strandOf c)).lastCount = some n →
    if (n - trigger).toNat < 2147483648 then
      markAnswer (s.strands.get (strandOf c)) trigger = .late ∧ (requestMark c trigger s).strands = s.strands ∧
        (requestMark c trigger s).status.partCounters =
          { s.status.partCounters with marksLate := min (s.status.partCounters.marksLate + 1) 65535 } ∧
          (requestMark c trigger s).status.part.latched = s.status.part.latched ||| 8
    else if ∃ m ∈ (s.strands.get (strandOf c)).queue,
        min (m.trigger - trigger).toNat (trigger - m.trigger).toNat ≤ (s.strands.get (strandOf c)).merge then
      markAnswer (s.strands.get (strandOf c)) trigger = .merged ∧ requestMark c trigger s = s
    else if 8 ≤ (s.strands.get (strandOf c)).queue.length then
      markAnswer (s.strands.get (strandOf c)) trigger = .dropped ∧ (requestMark c trigger s).strands = s.strands ∧
        (requestMark c trigger s).status.partCounters =
          { s.status.partCounters with marksDropped := min (s.status.partCounters.marksDropped + 1) 65535 } ∧
          (requestMark c trigger s).status.part.latched = s.status.part.latched ||| 16
    else
      markAnswer (s.strands.get (strandOf c)) trigger = .scheduled ∧
        List.Perm ((requestMark c trigger s).strands.get (strandOf c)).queue
          ({ trigger := trigger, chan := c
             expiry := s.ms + BitVec.ofNat 32 (1000 * (s.strands.get (strandOf c)).lifeS) } ::
            (s.strands.get (strandOf c)).queue) ∧
        (∀ j, j ≠ strandOf c → (requestMark c trigger s).strands.get j = s.strands.get j) ∧
          (requestMark c trigger s).status = s.status

/-! ## The status unit -/

/-- SNAPSHOT_EXPIRY with room in the queue: the 17 status blocks are offered, channel 0 to 15 and then the part-wide block,
each one STATUS write of 64 bytes, and the timer restarts with the same period. That it restarts from the count at which the
expiry is taken is log 30's (DEDUCED), and that the expiry does nothing before its time log 5's: the model's. -/
def Obligations.SnapshotOffersSeventeenBlocks : Prop :=
  ∀ (tm : MsTimer) (s : State), s.status.snapshot = some tm →
    (tm.length ≤ (s.ms - tm.start).toNat → s.path.queue.length ≤ 7 →
      (∀ i, i < 17 → s.path.queue.any (sameAddress (setupBase s.setup.strap + (0x2400 + 64 * i))) = false) →
        ∃ t bs, exec .snapshotExpiry s = .next t ∧ t.path.queue = s.path.queue ++ bs ∧
          (bs.map fun e => (e.kind, e.addr, e.data.length)) =
            ((List.range 17).map fun i => (.status, setupBase s.setup.strap + (0x2400 + 64 * i), 64)) ∧
          (∀ c : Chan,
            (bs[c.val]?).map OutEntry.data = some (channelBlock (s.chan c) (s.status.counters.get c))) ∧
          (bs[16]?).map OutEntry.data =
            some (partBlock { s with path := { s.path with queue := s.path.queue ++ bs.take 16 } }) ∧
          t.path.deferred = s.path.deferred ∧ t.status = { s.status with snapshot := some { tm with start := s.ms } } ∧
          t.chans = s.chans ∧ t.ring = s.ring ∧ t.strands = s.strands ∧ t.setup = s.setup) ∧
      ((s.ms - tm.start).toNat < tm.length → exec .snapshotExpiry s = .next s)

/-! ## The arithmetic of a line, of pitch, of tracks and of classes -/

/-- R59: an unsaturated column that is not dark takes the background B + floor((256 p − B) / 2^A), which lies between the
old one and the pixel, both included, and so within 0 to 65280; its stuck counter becomes 0. -/
def Obligations.BackgroundMovesTowardsThePixel : Prop :=
  ∀ (q : ChanParams) (t : Nat) (x : Column), x.b ≤ 65280 → x.p ≤ 255 → saturated q x = false → isDark q t x = false →
    (ordinaryPair q t x).2 = 0 ∧
      ((ordinaryPair q t x).1 : Int) = (x.b : Int) + Int.fdiv (256 * (x.p : Int) - (x.b : Int)) ((2 : Int) ^ q.a) ∧
      (ordinaryPair q t x).1 ≤ 65280 ∧
      (x.b ≤ 256 * x.p → x.b ≤ (ordinaryPair q t x).1 ∧ (ordinaryPair q t x).1 ≤ 256 * x.p) ∧
        (256 * x.p ≤ x.b → 256 * x.p ≤ (ordinaryPair q t x).1 ∧ (ordinaryPair q t x).1 ≤ x.b)

/-- R62: the runs of a line's dark columns, taken left to right, hold every dark column once: each lies in a run, the runs
stand apart by more than BR columns, and two neighbouring dark columns share a run exactly if at most BR columns lie between
them. A run begins and ends on dark columns; its area, peak and sum are those of its dark columns. -/
def Obligations.RunsPartitionTheDarkColumns : Prop :=
  ∀ (br : Nat) (ds : List Column), (ds.map Column.index).Pairwise (fun a b => a < b) →
    ((runsOfDark br ds).map Run.area).sum = ds.length ∧
      (runsOfDark br ds).Pairwise (fun r u => r.hi + br + 1 < u.lo) ∧
        (∀ x ∈ ds, ∃ r ∈ runsOfDark br ds, r.lo ≤ x.index ∧ x.index ≤ r.hi) ∧
        (∀ (before after : List Column) (x y : Column), ds = before ++ x :: y :: after →
          ((∃ r ∈ runsOfDark br ds, r.lo ≤ x.index ∧ y.index ≤ r.hi) ↔ y.index ≤ x.index + br + 1)) ∧
        ∀ r ∈ runsOfDark br ds,
          r.lo ≤ r.hi ∧ 1 ≤ r.area ∧ r.area ≤ r.hi - r.lo + 1 ∧ r.inMark = false ∧
            (∃ x ∈ ds, x.index = r.lo) ∧ (∃ x ∈ ds, x.index = r.hi) ∧
            ∀ mine : List Column, (mine = ds.filter fun x => decide (r.lo ≤ x.index) && decide (x.index ≤ r.hi)) →
              r.area = mine.length ∧ r.peak = (mine.map fun x => (residual x).toNat).foldl max 0 ∧
                ((∀ x ∈ ds, x.b ≤ 65280) → r.sum = min (mine.map fun x => (residual x).toNat).sum 4294967295)

/-- R79, R83: a spacing is on pitch exactly if n, the number of pitches it comes nearest to, is 1 to 4 and the deviation is
at most PTOL; it is then positive, lies at least as near to n pitches as to any other whole number of them, and its sample
is above 0. R84: the effective pitch is the floored mean of a ring of 4 samples or more with LEARN on, otherwise PITCH,
brought into PMIN to PMAX. R71 to R74: a band line opens or extends the episode, which closes as LONG, untested, at BANDMAX
lines; the first other line makes it ENDING, the second closes it with GAP. R75, R77 to R83: an episode that closes is
tested by its centre: with no previous centre it is the reference, on pitch it is accepted and its sample joins the ring,
otherwise it is handed to the classifier as a transverse candidate; a BLIND request then forgets the previous centre. (That
BANDMAX and PTOL are those of the analysis's set at a completion is log 15's.) -/
def Obligations.OnPitchSpacingsLieNearAMultiple : Prop :=
  (∀ (spacing : Int) (pitch tol : Nat), 2 ≤ pitch →
    (onPitch spacing pitch tol = true ↔ IsOnPitch spacing pitch tol) ∧
      (onPitch spacing pitch tol = true →
        0 < spacing ∧ pitchNumber spacing pitch = nearestMultiple spacing pitch ∧
          (∀ m : Int,
            (spacing - nearestMultiple spacing pitch * (pitch : Int)).natAbs ≤ (spacing - m * (pitch : Int)).natAbs) ∧
          pitchSample spacing pitch = (spacing / nearestMultiple spacing pitch).toNat ∧ 0 < pitchSample spacing pitch)) ∧
    (∀ (p : ChanParams) (ring : List Nat), p.pMin ≤ p.pMax →
      (p.learn = true → 4 ≤ ring.length → BroughtInto p.pMin p.pMax (ring.sum / ring.length) (effectivePitch p ring)) ∧
        ((p.learn = false ∨ ring.length < 4) → BroughtInto p.pMin p.pMax p.pitch (effectivePitch p ring))) ∧
      (∀ (c : Chan) (set : ParamSet) (count : Word32) (pos : Nat) (d : Option DarkSummary) (s : State),
        takeBandOutcome c set count pos d s = afterBandOutcome c set count pos d s) ∧
        ∀ (c : Chan) (set : ParamSet) (cause : Cause) (s : State),
          (((s.chan c).band.episode.state = .absent → closeEpisode c set cause s = s) ∧
            ((s.chan c).band.episode.state ≠ .absent →
              closeEpisode c set cause s = afterTest c set (s.chan c).band.episode cause s)) ∧
            ∀ t : State, t = closeEpisode c (s.chan c).params .blind s →
              blindEpisode c s = setChan c { t.chan c with band := { (t.chan c).band with prevCentre := none } } t

/-- R92, R93: of a run's candidates, in rising ID, the oldest against the present line is taken, the smaller ID among
equals. A candidate is a track whose span overlaps the run widened by LS; a run with a candidate extends one, a run without
extends none. R94 to R102: the tracks an analysed line leaves open: those that take runs are extended by all of them, their
new span the hull of those runs; the candidates of a run that is another's are JOINED; the others age, and those whose gap
exceeds G close, in the order of the table, each handed to the classifier with cause GAP; the runs without a candidate open
tracks, left to right, in the lowest FREE entries, those freed by the aging included; the runs for which none is left are
counted, TRACK_FULL set; CLUTTER marks every track. -/
def Obligations.RunsExtendTheOldestCandidate : Prop :=
  (∀ (l : LineRuns) (old : List Track) (r : Run), (old.map Track.id).Pairwise (fun a b => a < b) →
    (∀ u : Track, isCandidate l.ls r u = true ↔ SpanMeets l.ls r u) ∧
      (extendedBy l old r = none ↔ ∀ u ∈ old, ¬SpanMeets l.ls r u) ∧
        ∀ t : Track, extendedBy l old r = some t ↔ t ∈ old ∧ TakesRun l old r t) ∧
    ∀ (c : Chan) (set : ParamSet) (l : LineRuns) (old : List Track) (s t u : State), old = (s.chan c).tracks →
      TracksSound old → t = takeLine c set l s →
        u = handedOver c set .gap (agedTracks l old) (setChan c { s.chan c with tracks := tracksAfter l old } s) →
          (t.chan c).tracks = tracksAfter l old ∧ t.chans = u.chans ∧ t.ring = u.ring ∧ t.strands = u.strands ∧
            t.status.partCounters = u.status.partCounters ∧ t.status.part.latched = u.status.part.latched ∧
            (runsLost l old = 0 → t = u) ∧
            (1 ≤ runsLost l old →
              t.status.counters = u.status.counters.set c
                { u.status.counters.get c with
                  trackFull := min ((u.status.counters.get c).trackFull + runsLost l old) 65535 } ∧
              (t.status.words.get c).latched = (u.status.words.get c).latched ||| 32)

/-- R114, R115, R117: which closures are EDGE, the orientation each closure takes, and which closures an entry of a profile
table matches. -/
def Obligations.ClosuresTakeTheirEdgeAndOrientation : Prop :=
  ∀ (w : Nat) (p : ChanParams) (k : Closure),
    (isEdge w p k = true ↔
      1 ≤ p.edgeC ∧
        ((k.lo : Int) ≤ (p.mLo : Int) + p.edgeC - 1 ∨ (w : Int) - p.mHi - p.edgeC ≤ (k.hi : Int))) ∧
      (k.band = true → orientationOf p k = .transverse) ∧
        (k.band = false →
          (closureLength k < p.spot → closureWidth p k < p.spot → orientationOf p k = .spot) ∧
            ((p.spot ≤ closureLength k ∨ p.spot ≤ closureWidth p k) →
              (2 * closureWidth p k ≤ closureLength k → orientationOf p k = .longitudinal) ∧
                (closureLength k < 2 * closureWidth p k → 2 * closureLength k ≤ closureWidth p k →
                  orientationOf p k = .transverse) ∧
                  (closureLength k < 2 * closureWidth p k → closureWidth p k < 2 * closureLength k →
                    orientationOf p k = .oblique))) ∧
      ∀ e : Profile, profileMatches w p k e = true ↔
        e.enabled = true ∧
          e.orientations.getLsbD
              (match orientationOf p k with
              | .spot => 0
              | .longitudinal => 1
              | .transverse => 2
              | .oblique => 3) = true ∧
          e.minLength ≤ k.lastPos - k.firstPos ∧ e.minWidth ≤ (k.hi - k.lo + 1) * p.colP ∧ e.minPeak ≤ k.peak ∧
          e.minArea ≤ k.area ∧
          (e.inMark = .any ∨ (e.inMark = .required ∧ k.inMark = true) ∨ (e.inMark = .excluded ∧ k.inMark = false)) ∧
          (e.edge = .any ∨ (e.edge = .required ∧ isEdge w p k = true) ∨ (e.edge = .excluded ∧ isEdge w p k = false))

/-- R118 to R121: the first matching entry of the channel's table decides: the closure takes the next serial; where the
entry's mark is yes and the channel is LIVE it requests a mark at its first count + OFFSET (what the scheduler makes of it
is MarkRequestsAreAnsweredInOrder's), otherwise none; with room in the record queue its DEFECT record enters at the tail, with
64 queued it is lost: counted, RECORDS_LOST set, the loss episode opened or extended (R131), as is any record then produced;
with no match the closure is counted as discarded and takes no serial. -/
def Obligations.TheFirstMatchingEntryDecides : Prop :=
  ∀ (c : Chan) (set : ParamSet) (k : Closure) (s : State),
    (∀ (n : Nat) (e : Profile), (set.profiles.get (tableIndex set.chan.profile)).toList[n]? = some e →
      profileMatches (heldW s) set.chan k e = true →
        (∀ (m : Nat) (x : Profile), m < n → (set.profiles.get (tableIndex set.chan.profile)).toList[m]? = some x →
          profileMatches (heldW s) set.chan k x = false) →
          ((classify c set k s).chan c).record = { (s.chan c).record with serial := (s.chan c).record.serial + 1 } ∧
            (∀ d, d ≠ c → (classify c set k s).chan d = s.chan d) ∧
              (classify c set k s).strands =
                (if e.mark = true ∧ (s.chan c).record.mode = .live then
                  (requestMark c (k.firstCount + BitVec.ofNat 32 set.strand.offset) s).strands
                else s.strands) ∧
              (s.ring.queue.length < 64 →
                (classify c set k s).status =
                  (if e.mark = true ∧ (s.chan c).record.mode = .live then
                    (requestMark c (k.firstCount + BitVec.ofNat 32 set.strand.offset) s).status
                  else s.status) ∧
                (classify c set k s).ring =
                  { s.ring with
                    queue := s.ring.queue ++
                      [.defect
                        { chan := c
                          classCode := e.classCode
                          severity := e.severity
                          flags := defectFlags k (isEdge (heldW s) set.chan k)
                          mark :=
                            if e.mark = false then .none
                            else if (s.chan c).record.mode = .replay then .suppressed
                            else
                              markAnswer (s.strands.get (strandOf c))
                                (k.firstCount + BitVec.ofNat 32 set.strand.offset)
                          billet := (s.chan c).record.billet
                          serial := (s.chan c).record.serial + 1
                          firstPos := k.firstPos
                          length := k.lastPos - k.firstPos
                          lo := k.lo
                          hi := k.hi
                          peak := k.peak
                          area := k.area
                          lines := k.lines
                          closeTime := s.ms }] }) ∧
              ∀ u : State,
                (u =
                  if e.mark = true ∧ (s.chan c).record.mode = .live then
                    requestMark c (k.firstCount + BitVec.ofNat 32 set.strand.offset) s
                  else s) →
                  64 ≤ s.ring.queue.length →
                    (classify c set k s).ring = lostRing s.ms s.ring ∧
                      (classify c set k s).status.partCounters =
                        { u.status.partCounters with
                          recordsLost := min (u.status.partCounters.recordsLost + 1) 65535 } ∧
                      (classify c set k s).status.part.latched = u.status.part.latched ||| 4 ∧
                      (classify c set k s).status.words = s.status.words ∧
                      (classify c set k s).status.counters = s.status.counters) ∧
      ((∀ e ∈ (set.profiles.get (tableIndex set.chan.profile)).toList, profileMatches (heldW s) set.chan k e = false) →
        (classify c set k s).ring = s.ring ∧ (classify c set k s).strands = s.strands ∧
          ((classify c set k s).chan c).record =
            { (s.chan c).record with
              tallies := { (s.chan c).record.tallies with
                discarded := min ((s.chan c).record.tallies.discarded + 1) 65535 } } ∧
            (classify c set k s).status.counters.get c =
              { s.status.counters.get c with discarded := min ((s.status.counters.get c).discarded + 1) 65535 } ∧
              ∀ o, condWordOf (classify c set k s).status o = condWordOf s.status o) ∧
      ∀ r : Record, 64 ≤ s.ring.queue.length →
        (produce r s).ring = lostRing s.ms s.ring ∧ (produce r s).chans = s.chans ∧
          (produce r s).strands = s.strands ∧
          (produce r s).status.partCounters =
            { s.status.partCounters with recordsLost := min (s.status.partCounters.recordsLost + 1) 65535 } ∧
          (produce r s).status.part.latched = s.status.part.latched ||| 4 ∧
          (produce r s).status.words = s.status.words ∧ (produce r s).status.counters = s.status.counters

/-- R176, R177: APPLY's clamping brings the numbers of a channel, strand, profile and part-wide section into their ranges: a
number within its range is kept, one outside takes the nearer end; a margin pair keeps 32 columns between, PMIN, PITCH and
PMAX stand in order. Clamping a clamped channel or strand section changes nothing. -/
def Obligations.ClampedSettingsLieInTheirRanges : Prop :=
  ∀ (w : Nat) (p : ChanParams), 64 ≤ w →
    (clampChan w p).mLo ≤ 255 ∧ (clampChan w p).mHi ≤ 255 ∧ (clampChan w p).mLo + (clampChan w p).mHi + 32 ≤ w ∧
      (1 ≤ (clampChan w p).satLevel ∧ (clampChan w p).satLevel ≤ 255) ∧
      (1 ≤ (clampChan w p).obf ∧ (clampChan w p).obf ≤ 256) ∧
      (256 ≤ (clampChan w p).dfloor ∧ (clampChan w p).dfloor ≤ 16384) ∧
      (1 ≤ (clampChan w p).k ∧ (clampChan w p).k ≤ 32) ∧ (1 ≤ (clampChan w p).a ∧ (clampChan w p).a ≤ 8) ∧
      (1 ≤ (clampChan w p).l ∧ (clampChan w p).l ≤ 255) ∧ (clampChan w p).wu ≤ 63 ∧ (clampChan w p).br ≤ 15 ∧
      (1 ≤ (clampChan w p).rw ∧ (clampChan w p).rw ≤ 16) ∧ (clampChan w p).ls ≤ 8 ∧ (clampChan w p).g ≤ 15 ∧
      (1 ≤ (clampChan w p).maxSkip ∧ (clampChan w p).maxSkip ≤ 255) ∧
      (128 ≤ (clampChan w p).bf ∧ (clampChan w p).bf ≤ 256) ∧
      (256 ≤ (clampChan w p).deepM ∧ (clampChan w p).deepM ≤ 16384) ∧
      (2 ≤ (clampChan w p).bandMax ∧ (clampChan w p).bandMax ≤ 64) ∧ (clampChan w p).edgeC ≤ 64 ∧
      (clampChan w p).profile ≤ 3 ∧ (1 ≤ (clampChan w p).stallTens ∧ (clampChan w p).stallTens ≤ 255) ∧
      (1 ≤ (clampChan w p).abandonS ∧ (clampChan w p).abandonS ≤ 255) ∧
      (1 ≤ (clampChan w p).holdTens ∧ (clampChan w p).holdTens ≤ 255) ∧
      (2000 ≤ (clampChan w p).pMin ∧ (clampChan w p).pMin ≤ (clampChan w p).pitch ∧
        (clampChan w p).pitch ≤ (clampChan w p).pMax ∧ (clampChan w p).pMax ≤ 40000) ∧
      (clampChan w p).pTol ≤ 10000 ∧ (10 ≤ (clampChan w p).colP ∧ (clampChan w p).colP ≤ 2000) ∧
      (clampChan w p).spot ≤ 65535 ∧
      BroughtInto 1 255 p.satLevel (clampChan w p).satLevel ∧ BroughtInto 1 256 p.obf (clampChan w p).obf ∧
      BroughtInto 256 16384 p.dfloor (clampChan w p).dfloor ∧ BroughtInto 1 32 p.k (clampChan w p).k ∧
      BroughtInto 1 8 p.a (clampChan w p).a ∧ BroughtInto 1 255 p.l (clampChan w p).l ∧
      BroughtInto 0 63 p.wu (clampChan w p).wu ∧ BroughtInto 0 15 p.br (clampChan w p).br ∧
      BroughtInto 1 16 p.rw (clampChan w p).rw ∧ BroughtInto 0 8 p.ls (clampChan w p).ls ∧
      BroughtInto 0 15 p.g (clampChan w p).g ∧ BroughtInto 1 255 p.maxSkip (clampChan w p).maxSkip ∧
      BroughtInto 128 256 p.bf (clampChan w p).bf ∧ BroughtInto 256 16384 p.deepM (clampChan w p).deepM ∧
      BroughtInto 2 64 p.bandMax (clampChan w p).bandMax ∧ BroughtInto 0 64 p.edgeC (clampChan w p).edgeC ∧
      BroughtInto 0 3 p.profile (clampChan w p).profile ∧ BroughtInto 1 255 p.stallTens (clampChan w p).stallTens ∧
      BroughtInto 1 255 p.abandonS (clampChan w p).abandonS ∧ BroughtInto 1 255 p.holdTens (clampChan w p).holdTens ∧
      BroughtInto 2000 40000 p.pMin (clampChan w p).pMin ∧ BroughtInto 0 10000 p.pTol (clampChan w p).pTol ∧
      BroughtInto 10 2000 p.colP (clampChan w p).colP ∧ BroughtInto 0 65535 p.spot (clampChan w p).spot ∧
      (∀ m, BroughtInto 2000 40000 p.pMax m → (clampChan w p).pMax = max (clampChan w p).pMin m) ∧
      (∀ m, BroughtInto 2000 40000 p.pitch m →
        BroughtInto (clampChan w p).pMin (clampChan w p).pMax m (clampChan w p).pitch) ∧
      (if min 255 p.mLo + 32 ≤ w then
        (clampChan w p).mLo = min 255 p.mLo ∧ (clampChan w p).mHi = min (min 255 p.mHi) (w - 32 - min 255 p.mLo)
      else (clampChan w p).mLo = w - 32 ∧ (clampChan w p).mHi = 0) ∧
      (clampChan w p).learn = p.learn ∧ (clampChan w p).bandOff = p.bandOff ∧
      clampChan w (clampChan w p) = clampChan w p ∧
      (∀ x : StrandParams,
        (1 ≤ (clampStrand x).scale ∧ (clampStrand x).scale ≤ 4294967295) ∧ (clampStrand x).offset ≤ 2147483647 ∧
          (clampStrand x).merge ≤ 65535 ∧
          (1 ≤ (clampStrand x).pulseMs ∧ (clampStrand x).pulseMs ≤ 255) ∧
            (1 ≤ (clampStrand x).lifeS ∧ (clampStrand x).lifeS ≤ 60) ∧
          BroughtInto 1 4294967295 x.scale (clampStrand x).scale ∧
          BroughtInto 0 2147483647 x.offset (clampStrand x).offset ∧
          BroughtInto 0 65535 x.merge (clampStrand x).merge ∧ BroughtInto 1 255 x.pulseMs (clampStrand x).pulseMs ∧
          BroughtInto 1 60 x.lifeS (clampStrand x).lifeS ∧ clampStrand (clampStrand x) = clampStrand x) ∧
      (∀ x : Profile,
        (1 ≤ (clampProfile x).classCode ∧ (clampProfile x).classCode ≤ 63) ∧
          (1 ≤ (clampProfile x).severity ∧ (clampProfile x).severity ≤ 3) ∧
          BroughtInto 1 63 x.classCode (clampProfile x).classCode ∧ BroughtInto 1 3 x.severity (clampProfile x).severity ∧
          clampProfile x = { x with classCode := (clampProfile x).classCode, severity := (clampProfile x).severity }) ∧
      ∀ x : PartSection,
        (clampPart x).batchAge ≤ 1000 ∧ (clampPart x).code ≤ 7 ∧ BroughtInto 0 1000 x.batchAge (clampPart x).batchAge ∧
          BroughtInto 0 7 x.code (clampPart x).code ∧
          clampPart x = { x with batchAge := (clampPart x).batchAge, code := (clampPart x).code }
end

