-- ==== Sys2Proof/Laws/State.lean ====
section
/-! SUPPORT. The small lemmas of the banks and of the state's updates: what each update sets, and what it leaves. -/

namespace Sys2Proof

/-! ## Banks -/

section Banks

variable {α β : Type}

@[simp] theorem Bank4.get_set_same (b : Bank4 α) (i : Fin 4) (v : α) : (b.set i v).get i = v := by
  match i with
  | 0 => rfl
  | 1 => rfl
  | 2 => rfl
  | 3 => rfl

theorem Bank4.get_set_other (b : Bank4 α) {i j : Fin 4} (v : α) (h : j ≠ i) : (b.set i v).get j = b.get j := by
  match i, j, h with
  | 0, 1, _ | 0, 2, _ | 0, 3, _ | 1, 0, _ | 1, 2, _ | 1, 3, _ => rfl
  | 2, 0, _ | 2, 1, _ | 2, 3, _ | 3, 0, _ | 3, 1, _ | 3, 2, _ => rfl
  | 0, 0, h | 1, 1, h | 2, 2, h | 3, 3, h => exact absurd rfl h

@[simp] theorem Bank4.get_all (v : α) (i : Fin 4) : (Bank4.all v).get i = v := by
  match i with
  | 0 => rfl
  | 1 => rfl
  | 2 => rfl
  | 3 => rfl

@[simp] theorem Bank4.get_map (f : α → β) (b : Bank4 α) (i : Fin 4) : (b.map f).get i = f (b.get i) := by
  match i with
  | 0 => rfl
  | 1 => rfl
  | 2 => rfl
  | 3 => rfl

@[simp] theorem Bank4.get_ofFn (f : Fin 4 → α) (i : Fin 4) : (Bank4.ofFn f).get i = f i := by
  match i with
  | 0 => rfl
  | 1 => rfl
  | 2 => rfl
  | 3 => rfl

/-- A channel is determined by its strand and its face. -/
theorem chan_ext {c d : Chan} (hs : strandOf c = strandOf d) (hf : faceOf c = faceOf d) : c = d := by
  have h1 : c.val / 4 = d.val / 4 := congrArg Fin.val hs
  have h2 : c.val % 4 = d.val % 4 := congrArg Fin.val hf
  exact Fin.ext (by omega)

@[simp] theorem Bank16.get_set_same (b : Bank16 α) (c : Chan) (v : α) : (b.set c v).get c = v := by
  simp [Bank16.get, Bank16.set]

theorem Bank16.get_set_other (b : Bank16 α) {c d : Chan} (v : α) (h : d ≠ c) : (b.set c v).get d = b.get d := by
  unfold Bank16.get Bank16.set
  by_cases hs : strandOf d = strandOf c
  · have hf : faceOf d ≠ faceOf c := fun hf => h (chan_ext hs hf)
    rw [hs, Bank4.get_set_same, Bank4.get_set_other _ _ hf]
  · rw [Bank4.get_set_other _ _ hs]

@[simp] theorem Bank16.get_all (v : α) (c : Chan) : (Bank16.all v).get c = v := by simp [Bank16.get, Bank16.all]

@[simp] theorem Bank16.get_map (f : α → β) (b : Bank16 α) (c : Chan) : (b.map f).get c = f (b.get c) := by
  simp [Bank16.get, Bank16.map]

@[simp] theorem Bank16.get_ofFn (f : Chan → α) (c : Chan) : (Bank16.ofFn f).get c = f c := by
  fin_cases c <;> rfl

end Banks

namespace Machine

/-! ## Updates of one field -/

variable (s : State)

@[simp] theorem setChan_pending (c : Chan) (ch : Channel) : (setChan c ch s).pending = s.pending := rfl
@[simp] theorem setChan_us (c : Chan) (ch : Channel) : (setChan c ch s).us = s.us := rfl
@[simp] theorem setChan_ms (c : Chan) (ch : Channel) : (setChan c ch s).ms = s.ms := rfl
@[simp] theorem setChan_usInMs (c : Chan) (ch : Channel) : (setChan c ch s).usInMs = s.usInMs := rfl
@[simp] theorem setChan_resetLine (c : Chan) (ch : Channel) : (setChan c ch s).resetLine = s.resetLine := rfl
@[simp] theorem setChan_mfIn (c : Chan) (ch : Channel) : (setChan c ch s).mfIn = s.mfIn := rfl
@[simp] theorem setChan_chans (c : Chan) (ch : Channel) : (setChan c ch s).chans = s.chans.set c ch := rfl
@[simp] theorem setChan_unrouted (c : Chan) (ch : Channel) : (setChan c ch s).unrouted = s.unrouted := rfl
@[simp] theorem setChan_engine (c : Chan) (ch : Channel) : (setChan c ch s).engine = s.engine := rfl
@[simp] theorem setChan_ring (c : Chan) (ch : Channel) : (setChan c ch s).ring = s.ring := rfl
@[simp] theorem setChan_strands (c : Chan) (ch : Channel) : (setChan c ch s).strands = s.strands := rfl
@[simp] theorem setChan_path (c : Chan) (ch : Channel) : (setChan c ch s).path = s.path := rfl
@[simp] theorem setChan_setup (c : Chan) (ch : Channel) : (setChan c ch s).setup = s.setup := rfl
@[simp] theorem setChan_status (c : Chan) (ch : Channel) : (setChan c ch s).status = s.status := rfl
@[simp] theorem setChan_freeCount (c : Chan) (ch : Channel) : (setChan c ch s).freeCount = s.freeCount := rfl

@[simp] theorem modChan_pending (c : Chan) (f : Channel → Channel) : (modChan c f s).pending = s.pending := rfl
@[simp] theorem modChan_us (c : Chan) (f : Channel → Channel) : (modChan c f s).us = s.us := rfl
@[simp] theorem modChan_ms (c : Chan) (f : Channel → Channel) : (modChan c f s).ms = s.ms := rfl
@[simp] theorem modChan_usInMs (c : Chan) (f : Channel → Channel) : (modChan c f s).usInMs = s.usInMs := rfl
@[simp] theorem modChan_resetLine (c : Chan) (f : Channel → Channel) : (modChan c f s).resetLine = s.resetLine := rfl
@[simp] theorem modChan_mfIn (c : Chan) (f : Channel → Channel) : (modChan c f s).mfIn = s.mfIn := rfl
@[simp] theorem modChan_chans (c : Chan) (f : Channel → Channel) : (modChan c f s).chans =
    s.chans.set c (f (s.chan c)) := rfl
@[simp] theorem modChan_unrouted (c : Chan) (f : Channel → Channel) : (modChan c f s).unrouted = s.unrouted := rfl
@[simp] theorem modChan_engine (c : Chan) (f : Channel → Channel) : (modChan c f s).engine = s.engine := rfl
@[simp] theorem modChan_ring (c : Chan) (f : Channel → Channel) : (modChan c f s).ring = s.ring := rfl
@[simp] theorem modChan_strands (c : Chan) (f : Channel → Channel) : (modChan c f s).strands = s.strands := rfl
@[simp] theorem modChan_path (c : Chan) (f : Channel → Channel) : (modChan c f s).path = s.path := rfl
@[simp] theorem modChan_setup (c : Chan) (f : Channel → Channel) : (modChan c f s).setup = s.setup := rfl
@[simp] theorem modChan_status (c : Chan) (f : Channel → Channel) : (modChan c f s).status = s.status := rfl
@[simp] theorem modChan_freeCount (c : Chan) (f : Channel → Channel) : (modChan c f s).freeCount = s.freeCount := rfl

@[simp] theorem modStrand_pending (k : Strand) (f : StrandState → StrandState) : (modStrand k f s).pending =
    s.pending := rfl
@[simp] theorem modStrand_us (k : Strand) (f : StrandState → StrandState) : (modStrand k f s).us = s.us := rfl
@[simp] theorem modStrand_ms (k : Strand) (f : StrandState → StrandState) : (modStrand k f s).ms = s.ms := rfl
@[simp] theorem modStrand_usInMs (k : Strand) (f : StrandState → StrandState) : (modStrand k f s).usInMs =
    s.usInMs := rfl
@[simp] theorem modStrand_resetLine (k : Strand) (f : StrandState → StrandState) : (modStrand k f s).resetLine =
    s.resetLine := rfl
@[simp] theorem modStrand_mfIn (k : Strand) (f : StrandState → StrandState) : (modStrand k f s).mfIn = s.mfIn := rfl
@[simp] theorem modStrand_chans (k : Strand) (f : StrandState → StrandState) : (modStrand k f s).chans =
    s.chans := rfl
@[simp] theorem modStrand_unrouted (k : Strand) (f : StrandState → StrandState) : (modStrand k f s).unrouted =
    s.unrouted := rfl
@[simp] theorem modStrand_engine (k : Strand) (f : StrandState → StrandState) : (modStrand k f s).engine =
    s.engine := rfl
@[simp] theorem modStrand_ring (k : Strand) (f : StrandState → StrandState) : (modStrand k f s).ring = s.ring := rfl
@[simp] theorem modStrand_strands (k : Strand) (f : StrandState → StrandState) : (modStrand k f s).strands =
    s.strands.set k (f (s.strands.get k)) := rfl
@[simp] theorem modStrand_path (k : Strand) (f : StrandState → StrandState) : (modStrand k f s).path = s.path := rfl
@[simp] theorem modStrand_setup (k : Strand) (f : StrandState → StrandState) : (modStrand k f s).setup =
    s.setup := rfl
@[simp] theorem modStrand_status (k : Strand) (f : StrandState → StrandState) : (modStrand k f s).status =
    s.status := rfl
@[simp] theorem modStrand_freeCount (k : Strand) (f : StrandState → StrandState) : (modStrand k f s).freeCount =
    s.freeCount := rfl

@[simp] theorem modRing_pending (f : Ring → Ring) : (modRing f s).pending = s.pending := rfl
@[simp] theorem modRing_us (f : Ring → Ring) : (modRing f s).us = s.us := rfl
@[simp] theorem modRing_ms (f : Ring → Ring) : (modRing f s).ms = s.ms := rfl
@[simp] theorem modRing_usInMs (f : Ring → Ring) : (modRing f s).usInMs = s.usInMs := rfl
@[simp] theorem modRing_resetLine (f : Ring → Ring) : (modRing f s).resetLine = s.resetLine := rfl
@[simp] theorem modRing_mfIn (f : Ring → Ring) : (modRing f s).mfIn = s.mfIn := rfl
@[simp] theorem modRing_chans (f : Ring → Ring) : (modRing f s).chans = s.chans := rfl
@[simp] theorem modRing_unrouted (f : Ring → Ring) : (modRing f s).unrouted = s.unrouted := rfl
@[simp] theorem modRing_engine (f : Ring → Ring) : (modRing f s).engine = s.engine := rfl
@[simp] theorem modRing_ring (f : Ring → Ring) : (modRing f s).ring = f s.ring := rfl
@[simp] theorem modRing_strands (f : Ring → Ring) : (modRing f s).strands = s.strands := rfl
@[simp] theorem modRing_path (f : Ring → Ring) : (modRing f s).path = s.path := rfl
@[simp] theorem modRing_setup (f : Ring → Ring) : (modRing f s).setup = s.setup := rfl
@[simp] theorem modRing_status (f : Ring → Ring) : (modRing f s).status = s.status := rfl
@[simp] theorem modRing_freeCount (f : Ring → Ring) : (modRing f s).freeCount = s.freeCount := rfl

@[simp] theorem modPath_pending (f : Path → Path) : (modPath f s).pending = s.pending := rfl
@[simp] theorem modPath_us (f : Path → Path) : (modPath f s).us = s.us := rfl
@[simp] theorem modPath_ms (f : Path → Path) : (modPath f s).ms = s.ms := rfl
@[simp] theorem modPath_usInMs (f : Path → Path) : (modPath f s).usInMs = s.usInMs := rfl
@[simp] theorem modPath_resetLine (f : Path → Path) : (modPath f s).resetLine = s.resetLine := rfl
@[simp] theorem modPath_mfIn (f : Path → Path) : (modPath f s).mfIn = s.mfIn := rfl
@[simp] theorem modPath_chans (f : Path → Path) : (modPath f s).chans = s.chans := rfl
@[simp] theorem modPath_unrouted (f : Path → Path) : (modPath f s).unrouted = s.unrouted := rfl
@[simp] theorem modPath_engine (f : Path → Path) : (modPath f s).engine = s.engine := rfl
@[simp] theorem modPath_ring (f : Path → Path) : (modPath f s).ring = s.ring := rfl
@[simp] theorem modPath_strands (f : Path → Path) : (modPath f s).strands = s.strands := rfl
@[simp] theorem modPath_path (f : Path → Path) : (modPath f s).path = f s.path := rfl
@[simp] theorem modPath_setup (f : Path → Path) : (modPath f s).setup = s.setup := rfl
@[simp] theorem modPath_status (f : Path → Path) : (modPath f s).status = s.status := rfl
@[simp] theorem modPath_freeCount (f : Path → Path) : (modPath f s).freeCount = s.freeCount := rfl

@[simp] theorem modStatus_pending (f : Status → Status) : (modStatus f s).pending = s.pending := rfl
@[simp] theorem modStatus_us (f : Status → Status) : (modStatus f s).us = s.us := rfl
@[simp] theorem modStatus_ms (f : Status → Status) : (modStatus f s).ms = s.ms := rfl
@[simp] theorem modStatus_usInMs (f : Status → Status) : (modStatus f s).usInMs = s.usInMs := rfl
@[simp] theorem modStatus_resetLine (f : Status → Status) : (modStatus f s).resetLine = s.resetLine := rfl
@[simp] theorem modStatus_mfIn (f : Status → Status) : (modStatus f s).mfIn = s.mfIn := rfl
@[simp] theorem modStatus_chans (f : Status → Status) : (modStatus f s).chans = s.chans := rfl
@[simp] theorem modStatus_unrouted (f : Status → Status) : (modStatus f s).unrouted = s.unrouted := rfl
@[simp] theorem modStatus_engine (f : Status → Status) : (modStatus f s).engine = s.engine := rfl
@[simp] theorem modStatus_ring (f : Status → Status) : (modStatus f s).ring = s.ring := rfl
@[simp] theorem modStatus_strands (f : Status → Status) : (modStatus f s).strands = s.strands := rfl
@[simp] theorem modStatus_path (f : Status → Status) : (modStatus f s).path = s.path := rfl
@[simp] theorem modStatus_setup (f : Status → Status) : (modStatus f s).setup = s.setup := rfl
@[simp] theorem modStatus_status (f : Status → Status) : (modStatus f s).status = f s.status := rfl
@[simp] theorem modStatus_freeCount (f : Status → Status) : (modStatus f s).freeCount = s.freeCount := rfl

@[simp] theorem offerWord_pending (o : Nat) (d : List Byte) : (offerWord o d s).pending = s.pending := rfl
@[simp] theorem offerWord_us (o : Nat) (d : List Byte) : (offerWord o d s).us = s.us := rfl
@[simp] theorem offerWord_ms (o : Nat) (d : List Byte) : (offerWord o d s).ms = s.ms := rfl
@[simp] theorem offerWord_usInMs (o : Nat) (d : List Byte) : (offerWord o d s).usInMs = s.usInMs := rfl
@[simp] theorem offerWord_resetLine (o : Nat) (d : List Byte) : (offerWord o d s).resetLine = s.resetLine := rfl
@[simp] theorem offerWord_mfIn (o : Nat) (d : List Byte) : (offerWord o d s).mfIn = s.mfIn := rfl
@[simp] theorem offerWord_chans (o : Nat) (d : List Byte) : (offerWord o d s).chans = s.chans := rfl
@[simp] theorem offerWord_unrouted (o : Nat) (d : List Byte) : (offerWord o d s).unrouted = s.unrouted := rfl
@[simp] theorem offerWord_engine (o : Nat) (d : List Byte) : (offerWord o d s).engine = s.engine := rfl
@[simp] theorem offerWord_ring (o : Nat) (d : List Byte) : (offerWord o d s).ring = s.ring := rfl
@[simp] theorem offerWord_strands (o : Nat) (d : List Byte) : (offerWord o d s).strands = s.strands := rfl
@[simp] theorem offerWord_path (o : Nat) (d : List Byte) : (offerWord o d s).path =
    offerWordTo (setupBase s.setup.strap + o) d s.path := rfl
@[simp] theorem offerWord_setup (o : Nat) (d : List Byte) : (offerWord o d s).setup = s.setup := rfl
@[simp] theorem offerWord_status (o : Nat) (d : List Byte) : (offerWord o d s).status = s.status := rfl
@[simp] theorem offerWord_freeCount (o : Nat) (d : List Byte) : (offerWord o d s).freeCount = s.freeCount := rfl

@[simp] theorem offerStatus_pending (o : Nat) (d : List Byte) : (offerStatus o d s).pending = s.pending := rfl
@[simp] theorem offerStatus_us (o : Nat) (d : List Byte) : (offerStatus o d s).us = s.us := rfl
@[simp] theorem offerStatus_ms (o : Nat) (d : List Byte) : (offerStatus o d s).ms = s.ms := rfl
@[simp] theorem offerStatus_usInMs (o : Nat) (d : List Byte) : (offerStatus o d s).usInMs = s.usInMs := rfl
@[simp] theorem offerStatus_resetLine (o : Nat) (d : List Byte) : (offerStatus o d s).resetLine = s.resetLine := rfl
@[simp] theorem offerStatus_mfIn (o : Nat) (d : List Byte) : (offerStatus o d s).mfIn = s.mfIn := rfl
@[simp] theorem offerStatus_chans (o : Nat) (d : List Byte) : (offerStatus o d s).chans = s.chans := rfl
@[simp] theorem offerStatus_unrouted (o : Nat) (d : List Byte) : (offerStatus o d s).unrouted = s.unrouted := rfl
@[simp] theorem offerStatus_engine (o : Nat) (d : List Byte) : (offerStatus o d s).engine = s.engine := rfl
@[simp] theorem offerStatus_ring (o : Nat) (d : List Byte) : (offerStatus o d s).ring = s.ring := rfl
@[simp] theorem offerStatus_strands (o : Nat) (d : List Byte) : (offerStatus o d s).strands = s.strands := rfl
@[simp] theorem offerStatus_path (o : Nat) (d : List Byte) : (offerStatus o d s).path =
    offerStatusTo (setupBase s.setup.strap + o) d s.path := rfl
@[simp] theorem offerStatus_setup (o : Nat) (d : List Byte) : (offerStatus o d s).setup = s.setup := rfl
@[simp] theorem offerStatus_status (o : Nat) (d : List Byte) : (offerStatus o d s).status = s.status := rfl
@[simp] theorem offerStatus_freeCount (o : Nat) (d : List Byte) : (offerStatus o d s).freeCount = s.freeCount := rfl

@[simp] theorem modCounters_pending (c : Chan) (f : ChanCounters → ChanCounters) : (modCounters c f s).pending =
    s.pending := rfl
@[simp] theorem modCounters_us (c : Chan) (f : ChanCounters → ChanCounters) : (modCounters c f s).us = s.us := rfl
@[simp] theorem modCounters_ms (c : Chan) (f : ChanCounters → ChanCounters) : (modCounters c f s).ms = s.ms := rfl
@[simp] theorem modCounters_usInMs (c : Chan) (f : ChanCounters → ChanCounters) : (modCounters c f s).usInMs =
    s.usInMs := rfl
@[simp] theorem modCounters_resetLine (c : Chan) (f : ChanCounters → ChanCounters) : (modCounters c f s).resetLine =
    s.resetLine := rfl
@[simp] theorem modCounters_mfIn (c : Chan) (f : ChanCounters → ChanCounters) : (modCounters c f s).mfIn =
    s.mfIn := rfl
@[simp] theorem modCounters_chans (c : Chan) (f : ChanCounters → ChanCounters) : (modCounters c f s).chans =
    s.chans := rfl
@[simp] theorem modCounters_unrouted (c : Chan) (f : ChanCounters → ChanCounters) : (modCounters c f s).unrouted =
    s.unrouted := rfl
@[simp] theorem modCounters_engine (c : Chan) (f : ChanCounters → ChanCounters) : (modCounters c f s).engine =
    s.engine := rfl
@[simp] theorem modCounters_ring (c : Chan) (f : ChanCounters → ChanCounters) : (modCounters c f s).ring =
    s.ring := rfl
@[simp] theorem modCounters_strands (c : Chan) (f : ChanCounters → ChanCounters) : (modCounters c f s).strands =
    s.strands := rfl
@[simp] theorem modCounters_path (c : Chan) (f : ChanCounters → ChanCounters) : (modCounters c f s).path =
    s.path := rfl
@[simp] theorem modCounters_setup (c : Chan) (f : ChanCounters → ChanCounters) : (modCounters c f s).setup =
    s.setup := rfl
@[simp] theorem modCounters_status (c : Chan) (f : ChanCounters → ChanCounters) : (modCounters c f s).status =
    { s.status with counters := s.status.counters.set c (f (s.status.counters.get c)) } := rfl
@[simp] theorem modCounters_freeCount (c : Chan) (f : ChanCounters → ChanCounters) : (modCounters c f s).freeCount =
    s.freeCount := rfl

@[simp] theorem modPartCounters_pending (f : PartCounters → PartCounters) : (modPartCounters f s).pending =
    s.pending := rfl
@[simp] theorem modPartCounters_us (f : PartCounters → PartCounters) : (modPartCounters f s).us = s.us := rfl
@[simp] theorem modPartCounters_ms (f : PartCounters → PartCounters) : (modPartCounters f s).ms = s.ms := rfl
@[simp] theorem modPartCounters_usInMs (f : PartCounters → PartCounters) : (modPartCounters f s).usInMs =
    s.usInMs := rfl
@[simp] theorem modPartCounters_resetLine (f : PartCounters → PartCounters) : (modPartCounters f s).resetLine =
    s.resetLine := rfl
@[simp] theorem modPartCounters_mfIn (f : PartCounters → PartCounters) : (modPartCounters f s).mfIn = s.mfIn := rfl
@[simp] theorem modPartCounters_chans (f : PartCounters → PartCounters) : (modPartCounters f s).chans = s.chans := rfl
@[simp] theorem modPartCounters_unrouted (f : PartCounters → PartCounters) : (modPartCounters f s).unrouted =
    s.unrouted := rfl
@[simp] theorem modPartCounters_engine (f : PartCounters → PartCounters) : (modPartCounters f s).engine =
    s.engine := rfl
@[simp] theorem modPartCounters_ring (f : PartCounters → PartCounters) : (modPartCounters f s).ring = s.ring := rfl
@[simp] theorem modPartCounters_strands (f : PartCounters → PartCounters) : (modPartCounters f s).strands =
    s.strands := rfl
@[simp] theorem modPartCounters_path (f : PartCounters → PartCounters) : (modPartCounters f s).path = s.path := rfl
@[simp] theorem modPartCounters_setup (f : PartCounters → PartCounters) : (modPartCounters f s).setup = s.setup := rfl
@[simp] theorem modPartCounters_status (f : PartCounters → PartCounters) : (modPartCounters f s).status =
    { s.status with partCounters := f s.status.partCounters } := rfl
@[simp] theorem modPartCounters_freeCount (f : PartCounters → PartCounters) : (modPartCounters f s).freeCount =
    s.freeCount := rfl

@[simp] theorem setCommand_pending (k : CommandState) : (setCommand k s).pending = s.pending := rfl
@[simp] theorem setCommand_us (k : CommandState) : (setCommand k s).us = s.us := rfl
@[simp] theorem setCommand_ms (k : CommandState) : (setCommand k s).ms = s.ms := rfl
@[simp] theorem setCommand_usInMs (k : CommandState) : (setCommand k s).usInMs = s.usInMs := rfl
@[simp] theorem setCommand_resetLine (k : CommandState) : (setCommand k s).resetLine = s.resetLine := rfl
@[simp] theorem setCommand_mfIn (k : CommandState) : (setCommand k s).mfIn = s.mfIn := rfl
@[simp] theorem setCommand_chans (k : CommandState) : (setCommand k s).chans = s.chans := rfl
@[simp] theorem setCommand_unrouted (k : CommandState) : (setCommand k s).unrouted = s.unrouted := rfl
@[simp] theorem setCommand_engine (k : CommandState) : (setCommand k s).engine = s.engine := rfl
@[simp] theorem setCommand_ring (k : CommandState) : (setCommand k s).ring = s.ring := rfl
@[simp] theorem setCommand_strands (k : CommandState) : (setCommand k s).strands = s.strands := rfl
@[simp] theorem setCommand_path (k : CommandState) : (setCommand k s).path = s.path := rfl
@[simp] theorem setCommand_setup (k : CommandState) : (setCommand k s).setup = { s.setup with command := k } := rfl
@[simp] theorem setCommand_status (k : CommandState) : (setCommand k s).status = s.status := rfl
@[simp] theorem setCommand_freeCount (k : CommandState) : (setCommand k s).freeCount = s.freeCount := rfl

@[simp] theorem chan_setChan_same (c : Chan) (ch : Channel) : (setChan c ch s).chan c = ch := by
  simp [State.chan]

@[simp] theorem chan_modChan_same (c : Chan) (f : Channel → Channel) : (modChan c f s).chan c = f (s.chan c) := by
  simp [State.chan]

theorem chan_setChan_other {c d : Chan} (ch : Channel) (h : d ≠ c) : (setChan c ch s).chan d = s.chan d := by
  simp [State.chan, Bank16.get_set_other _ _ h]

theorem chan_modChan_other {c d : Chan} (f : Channel → Channel) (h : d ≠ c) : (modChan c f s).chan d = s.chan d := by
  simp [State.chan, Bank16.get_set_other _ _ h]

/-! ## Updates inside a channel -/

theorem modRecord_eq (c : Chan) (f : ChanRecord → ChanRecord) :
    modRecord c f s = modChan c (fun ch => { ch with record := f ch.record }) s := rfl

theorem modCapture_eq (c : Chan) (f : Capture → Capture) :
    modCapture c f s = modChan c (fun ch => { ch with capture := f ch.capture }) s := rfl

theorem modBand_eq (c : Chan) (f : Band → Band) :
    modBand c f s = modChan c (fun ch => { ch with band := f ch.band }) s := rfl

theorem modTallies_eq (c : Chan) (f : Tallies → Tallies) :
    modTallies c f s = modRecord c (fun r => { r with tallies := f r.tallies }) s := rfl

@[simp] theorem modRecord_chan_same (c : Chan) (f : ChanRecord → ChanRecord) :
    (modRecord c f s).chan c = { s.chan c with record := f (s.chan c).record } := chan_modChan_same s c _

theorem modRecord_chan_other {c d : Chan} (f : ChanRecord → ChanRecord) (h : d ≠ c) : (modRecord c f s).chan d = s.chan d :=
  chan_modChan_other s _ h

@[simp] theorem modCapture_chan_same (c : Chan) (f : Capture → Capture) :
    (modCapture c f s).chan c = { s.chan c with capture := f (s.chan c).capture } := chan_modChan_same s c _

theorem modCapture_chan_other {c d : Chan} (f : Capture → Capture) (h : d ≠ c) : (modCapture c f s).chan d = s.chan d :=
  chan_modChan_other s _ h

@[simp] theorem modBand_chan_same (c : Chan) (f : Band → Band) :
    (modBand c f s).chan c = { s.chan c with band := f (s.chan c).band } := chan_modChan_same s c _

theorem modBand_chan_other {c d : Chan} (f : Band → Band) (h : d ≠ c) : (modBand c f s).chan d = s.chan d :=
  chan_modChan_other s _ h

@[simp] theorem modTallies_chan_same (c : Chan) (f : Tallies → Tallies) :
    (modTallies c f s).chan c =
      { s.chan c with record := { (s.chan c).record with tallies := f (s.chan c).record.tallies } } :=
  modRecord_chan_same s c _

theorem modTallies_chan_other {c d : Chan} (f : Tallies → Tallies) (h : d ≠ c) : (modTallies c f s).chan d = s.chan d :=
  modRecord_chan_other s _ h

@[simp] theorem modRecord_pending (c : Chan) (f : ChanRecord → ChanRecord) : (modRecord c f s).pending =
    s.pending := rfl
@[simp] theorem modRecord_us (c : Chan) (f : ChanRecord → ChanRecord) : (modRecord c f s).us = s.us := rfl
@[simp] theorem modRecord_ms (c : Chan) (f : ChanRecord → ChanRecord) : (modRecord c f s).ms = s.ms := rfl
@[simp] theorem modRecord_usInMs (c : Chan) (f : ChanRecord → ChanRecord) : (modRecord c f s).usInMs = s.usInMs := rfl
@[simp] theorem modRecord_resetLine (c : Chan) (f : ChanRecord → ChanRecord) : (modRecord c f s).resetLine =
    s.resetLine := rfl
@[simp] theorem modRecord_mfIn (c : Chan) (f : ChanRecord → ChanRecord) : (modRecord c f s).mfIn = s.mfIn := rfl
@[simp] theorem modRecord_unrouted (c : Chan) (f : ChanRecord → ChanRecord) : (modRecord c f s).unrouted =
    s.unrouted := rfl
@[simp] theorem modRecord_engine (c : Chan) (f : ChanRecord → ChanRecord) : (modRecord c f s).engine = s.engine := rfl
@[simp] theorem modRecord_ring (c : Chan) (f : ChanRecord → ChanRecord) : (modRecord c f s).ring = s.ring := rfl
@[simp] theorem modRecord_strands (c : Chan) (f : ChanRecord → ChanRecord) : (modRecord c f s).strands =
    s.strands := rfl
@[simp] theorem modRecord_path (c : Chan) (f : ChanRecord → ChanRecord) : (modRecord c f s).path = s.path := rfl
@[simp] theorem modRecord_setup (c : Chan) (f : ChanRecord → ChanRecord) : (modRecord c f s).setup = s.setup := rfl
@[simp] theorem modRecord_status (c : Chan) (f : ChanRecord → ChanRecord) : (modRecord c f s).status = s.status := rfl
@[simp] theorem modRecord_freeCount (c : Chan) (f : ChanRecord → ChanRecord) : (modRecord c f s).freeCount =
    s.freeCount := rfl

@[simp] theorem modCapture_pending (c : Chan) (f : Capture → Capture) : (modCapture c f s).pending = s.pending := rfl
@[simp] theorem modCapture_us (c : Chan) (f : Capture → Capture) : (modCapture c f s).us = s.us := rfl
@[simp] theorem modCapture_ms (c : Chan) (f : Capture → Capture) : (modCapture c f s).ms = s.ms := rfl
@[simp] theorem modCapture_usInMs (c : Chan) (f : Capture → Capture) : (modCapture c f s).usInMs = s.usInMs := rfl
@[simp] theorem modCapture_resetLine (c : Chan) (f : Capture → Capture) : (modCapture c f s).resetLine =
    s.resetLine := rfl
@[simp] theorem modCapture_mfIn (c : Chan) (f : Capture → Capture) : (modCapture c f s).mfIn = s.mfIn := rfl
@[simp] theorem modCapture_unrouted (c : Chan) (f : Capture → Capture) : (modCapture c f s).unrouted =
    s.unrouted := rfl
@[simp] theorem modCapture_engine (c : Chan) (f : Capture → Capture) : (modCapture c f s).engine = s.engine := rfl
@[simp] theorem modCapture_ring (c : Chan) (f : Capture → Capture) : (modCapture c f s).ring = s.ring := rfl
@[simp] theorem modCapture_strands (c : Chan) (f : Capture → Capture) : (modCapture c f s).strands = s.strands := rfl
@[simp] theorem modCapture_path (c : Chan) (f : Capture → Capture) : (modCapture c f s).path = s.path := rfl
@[simp] theorem modCapture_setup (c : Chan) (f : Capture → Capture) : (modCapture c f s).setup = s.setup := rfl
@[simp] theorem modCapture_status (c : Chan) (f : Capture → Capture) : (modCapture c f s).status = s.status := rfl
@[simp] theorem modCapture_freeCount (c : Chan) (f : Capture → Capture) : (modCapture c f s).freeCount =
    s.freeCount := rfl

@[simp] theorem modBand_pending (c : Chan) (f : Band → Band) : (modBand c f s).pending = s.pending := rfl
@[simp] theorem modBand_us (c : Chan) (f : Band → Band) : (modBand c f s).us = s.us := rfl
@[simp] theorem modBand_ms (c : Chan) (f : Band → Band) : (modBand c f s).ms = s.ms := rfl
@[simp] theorem modBand_usInMs (c : Chan) (f : Band → Band) : (modBand c f s).usInMs = s.usInMs := rfl
@[simp] theorem modBand_resetLine (c : Chan) (f : Band → Band) : (modBand c f s).resetLine = s.resetLine := rfl
@[simp] theorem modBand_mfIn (c : Chan) (f : Band → Band) : (modBand c f s).mfIn = s.mfIn := rfl
@[simp] theorem modBand_unrouted (c : Chan) (f : Band → Band) : (modBand c f s).unrouted = s.unrouted := rfl
@[simp] theorem modBand_engine (c : Chan) (f : Band → Band) : (modBand c f s).engine = s.engine := rfl
@[simp] theorem modBand_ring (c : Chan) (f : Band → Band) : (modBand c f s).ring = s.ring := rfl
@[simp] theorem modBand_strands (c : Chan) (f : Band → Band) : (modBand c f s).strands = s.strands := rfl
@[simp] theorem modBand_path (c : Chan) (f : Band → Band) : (modBand c f s).path = s.path := rfl
@[simp] theorem modBand_setup (c : Chan) (f : Band → Band) : (modBand c f s).setup = s.setup := rfl
@[simp] theorem modBand_status (c : Chan) (f : Band → Band) : (modBand c f s).status = s.status := rfl
@[simp] theorem modBand_freeCount (c : Chan) (f : Band → Band) : (modBand c f s).freeCount = s.freeCount := rfl

@[simp] theorem modTallies_pending (c : Chan) (f : Tallies → Tallies) : (modTallies c f s).pending = s.pending := rfl
@[simp] theorem modTallies_us (c : Chan) (f : Tallies → Tallies) : (modTallies c f s).us = s.us := rfl
@[simp] theorem modTallies_ms (c : Chan) (f : Tallies → Tallies) : (modTallies c f s).ms = s.ms := rfl
@[simp] theorem modTallies_usInMs (c : Chan) (f : Tallies → Tallies) : (modTallies c f s).usInMs = s.usInMs := rfl
@[simp] theorem modTallies_resetLine (c : Chan) (f : Tallies → Tallies) : (modTallies c f s).resetLine =
    s.resetLine := rfl
@[simp] theorem modTallies_mfIn (c : Chan) (f : Tallies → Tallies) : (modTallies c f s).mfIn = s.mfIn := rfl
@[simp] theorem modTallies_unrouted (c : Chan) (f : Tallies → Tallies) : (modTallies c f s).unrouted =
    s.unrouted := rfl
@[simp] theorem modTallies_engine (c : Chan) (f : Tallies → Tallies) : (modTallies c f s).engine = s.engine := rfl
@[simp] theorem modTallies_ring (c : Chan) (f : Tallies → Tallies) : (modTallies c f s).ring = s.ring := rfl
@[simp] theorem modTallies_strands (c : Chan) (f : Tallies → Tallies) : (modTallies c f s).strands = s.strands := rfl
@[simp] theorem modTallies_path (c : Chan) (f : Tallies → Tallies) : (modTallies c f s).path = s.path := rfl
@[simp] theorem modTallies_setup (c : Chan) (f : Tallies → Tallies) : (modTallies c f s).setup = s.setup := rfl
@[simp] theorem modTallies_status (c : Chan) (f : Tallies → Tallies) : (modTallies c f s).status = s.status := rfl
@[simp] theorem modTallies_freeCount (c : Chan) (f : Tallies → Tallies) : (modTallies c f s).freeCount =
    s.freeCount := rfl

/-! ## Capture entries and condition words -/

@[simp] theorem entryOf_setEntry_same (k : Capture) (e : Fin 2) (v : Entry) : entryOf (setEntry k e v) e = v := by
  match e with
  | 0 => rfl
  | 1 => rfl

theorem entryOf_setEntry_other (k : Capture) {e d : Fin 2} (v : Entry) (h : d ≠ e) :
    entryOf (setEntry k e v) d = entryOf k d := by
  match e, d, h with
  | 0, 1, _ => rfl
  | 1, 0, _ => rfl
  | 0, 0, h => exact absurd rfl h
  | 1, 1, h => exact absurd rfl h

/-- Replacing an entry leaves the rest of the capture state. -/
@[simp] theorem setEntry_rest (k : Capture) (e : Fin 2) (v : Entry) :
    (setEntry k e v).asm = k.asm ∧ (setEntry k e v).lastSeq = k.lastSeq ∧ (setEntry k e v).unplaced = k.unplaced ∧
      (setEntry k e v).unseenRun = k.unseenRun ∧ (setEntry k e v).queue = k.queue := by
  match e with
  | 0 => exact ⟨rfl, rfl, rfl, rfl, rfl⟩
  | 1 => exact ⟨rfl, rfl, rfl, rfl, rfl⟩

@[simp] theorem condWordOf_setCondWord_same (o : Owner) (v : CondWord) (st : Status) :
    condWordOf (setCondWord o v st) o = v := by
  cases o <;> simp [condWordOf, setCondWord]

theorem condWordOf_setCondWord_other {o p : Owner} (v : CondWord) (st : Status) (h : p ≠ o) :
    condWordOf (setCondWord o v st) p = condWordOf st p := by
  cases o with
  | chan c =>
    cases p with
    | chan d => exact Bank16.get_set_other _ _ fun e => h (congrArg Owner.chan e)
    | part => rfl
  | part =>
    cases p with
    | chan d => rfl
    | part => exact absurd rfl h

/-- Replacing a condition word leaves the rest of the status unit. -/
@[simp] theorem setCondWord_rest (o : Owner) (v : CondWord) (st : Status) :
    (setCondWord o v st).counters = st.counters ∧ (setCondWord o v st).partCounters = st.partCounters ∧
      (setCondWord o v st).maskChan = st.maskChan ∧ (setCondWord o v st).maskPart = st.maskPart ∧
        (setCondWord o v st).summary = st.summary ∧ (setCondWord o v st).code = st.code ∧
          (setCondWord o v st).snapshot = st.snapshot ∧ (setCondWord o v st).resets = st.resets := by
  cases o <;> exact ⟨rfl, rfl, rfl, rfl, rfl, rfl, rfl, rfl⟩

end Machine

end Sys2Proof
end

