-- ==== Sys2Proof/Laws/Ops.lean ====
section
/-! SUPPORT. What each shared operation can do: one lemma per operation over the outgoing queue, the latched sets, the record
queue, the flush flag, held trailers and the order of delivery. -/

namespace Sys2Proof.Machine

open Sys2Proof.Safety

/-! ## Operations that only offer writes and change latched sets -/

/-- `t` differs from `s` at most in the outgoing writes (queued and deferred), the latched sets, their published copies and
the attention summary. -/
structure OffersOnly (s t : State) : Prop where
  pending : t.pending = s.pending
  us : t.us = s.us
  ms : t.ms = s.ms
  usInMs : t.usInMs = s.usInMs
  resetLine : t.resetLine = s.resetLine
  mfIn : t.mfIn = s.mfIn
  chans : t.chans = s.chans
  unrouted : t.unrouted = s.unrouted
  engine : t.engine = s.engine
  ring : t.ring = s.ring
  strands : t.strands = s.strands
  setup : t.setup = s.setup
  freeCount : t.freeCount = s.freeCount
  list : t.path.list = s.path.list
  port : t.path.port = s.path.port
  sysOut : t.path.sysOut = s.path.sysOut
  partOut : t.path.partOut = s.path.partOut
  lastSide : t.path.lastSide = s.path.lastSide
  nextId : t.path.nextId = s.path.nextId
  memLog : t.path.memLog = s.path.memLog
  sysLog : t.path.sysLog = s.path.sysLog
  counters : t.status.counters = s.status.counters
  partCounters : t.status.partCounters = s.status.partCounters
  maskChan : t.status.maskChan = s.status.maskChan
  maskPart : t.status.maskPart = s.status.maskPart
  code : t.status.code = s.status.code
  snapshot : t.status.snapshot = s.status.snapshot
  resets : t.status.resets = s.status.resets

theorem OffersOnly.refl (s : State) : OffersOnly s s := by constructor <;> rfl

theorem OffersOnly.trans {s t u : State} (h : OffersOnly s t) (k : OffersOnly t u) : OffersOnly s u where
  pending := k.pending.trans h.pending
  us := k.us.trans h.us
  ms := k.ms.trans h.ms
  usInMs := k.usInMs.trans h.usInMs
  resetLine := k.resetLine.trans h.resetLine
  mfIn := k.mfIn.trans h.mfIn
  chans := k.chans.trans h.chans
  unrouted := k.unrouted.trans h.unrouted
  engine := k.engine.trans h.engine
  ring := k.ring.trans h.ring
  strands := k.strands.trans h.strands
  setup := k.setup.trans h.setup
  freeCount := k.freeCount.trans h.freeCount
  list := k.list.trans h.list
  port := k.port.trans h.port
  sysOut := k.sysOut.trans h.sysOut
  partOut := k.partOut.trans h.partOut
  lastSide := k.lastSide.trans h.lastSide
  nextId := k.nextId.trans h.nextId
  memLog := k.memLog.trans h.memLog
  sysLog := k.sysLog.trans h.sysLog
  counters := k.counters.trans h.counters
  partCounters := k.partCounters.trans h.partCounters
  maskChan := k.maskChan.trans h.maskChan
  maskPart := k.maskPart.trans h.maskPart
  code := k.code.trans h.code
  snapshot := k.snapshot.trans h.snapshot
  resets := k.resets.trans h.resets

theorem OffersOnly.chan {s t : State} (h : OffersOnly s t) (c : Chan) : t.chan c = s.chan c := by
  simp only [State.chan, h.chans]

/-- What an offer of a WORD write can do: the queued entry's data replaced, the entry queued, or its content deferred. -/
theorem offerWordTo_cases (a : Nat) (d : List Byte) (p : Path) :
    offerWordTo a d p = { p with queue := replaceData a d p.queue } ∧ p.queue.any (sameAddress a) = true ∨
      (offerWordTo a d p = { p with queue := p.queue ++ [{ kind := .word, addr := a, data := d }] } ∧
        p.queue.any (sameAddress a) = false ∧ p.queue.length < 32) ∨
      (offerWordTo a d p = { p with deferred := putStore p.deferred a d } ∧ p.queue.any (sameAddress a) = false ∧
        32 ≤ p.queue.length) := by
  unfold offerWordTo
  split
  · next h => exact .inl ⟨rfl, h⟩
  · next h =>
    split
    · next k => exact .inr (.inl ⟨rfl, by simpa using h, k⟩)
    · next k => exact .inr (.inr ⟨rfl, by simpa using h, by omega⟩)

/-- What an offer of a STATUS write can do: the queued entry's data replaced, the entry queued, or nothing. -/
theorem offerStatusTo_cases (a : Nat) (d : List Byte) (p : Path) :
    offerStatusTo a d p = { p with queue := replaceData a d p.queue } ∧ p.queue.any (sameAddress a) = true ∨
      (offerStatusTo a d p = { p with queue := p.queue ++ [{ kind := .status, addr := a, data := d }] } ∧
        p.queue.any (sameAddress a) = false ∧ p.queue.length < 24) ∨
      (offerStatusTo a d p = p ∧ p.queue.any (sameAddress a) = false ∧ 24 ≤ p.queue.length) := by
  unfold offerStatusTo
  split
  · next h => exact .inl ⟨rfl, h⟩
  · next h =>
    split
    · next k => exact .inr (.inl ⟨rfl, by simpa using h, k⟩)
    · next k => exact .inr (.inr ⟨rfl, by simpa using h, by omega⟩)

/-- Replacing an entry's data keeps every address and every kind in place. -/
theorem replaceData_shape (a : Nat) (d : List Byte) (q : List OutEntry) :
    (replaceData a d q).map (fun e => (e.kind, e.addr)) = q.map fun e => (e.kind, e.addr) := by
  unfold replaceData
  rw [List.map_map]
  refine List.map_congr_left fun e _ => ?_
  simp only [Function.comp_apply]
  split <;> rfl

theorem offerWord_offersOnly (o : Nat) (d : List Byte) (s : State) : OffersOnly s (offerWord o d s) := by
  rcases offerWordTo_cases (setupBase s.setup.strap + o) d s.path with ⟨h, -⟩ | ⟨h, -⟩ | ⟨h, -⟩ <;>
    constructor <;> simp [h]

theorem offerStatus_offersOnly (o : Nat) (d : List Byte) (s : State) : OffersOnly s (offerStatus o d s) := by
  rcases offerStatusTo_cases (setupBase s.setup.strap + o) d s.path with ⟨h, -⟩ | ⟨h, -⟩ | ⟨h, -⟩ <;>
    constructor <;> simp [h]

theorem setSummary_offersOnly (f : Status → BitVec 17) (s : State) :
    OffersOnly s (modStatus (fun st => { st with summary := f st }) s) := by
  constructor <;> rfl

theorem setCondWord_offersOnly (o : Owner) (f : CondWord → CondWord) (s : State) :
    OffersOnly s (modStatus (fun st => setCondWord o (f (condWordOf st o)) st) s) := by
  constructor <;> simp

theorem refreshAttention_offersOnly (s : State) : OffersOnly s (refreshAttention s) := by
  unfold refreshAttention
  split
  · exact .refl s
  · exact (setSummary_offersOnly attentionOf s).trans (offerWord_offersOnly _ _ _)

theorem setLatched_offersOnly (o : Owner) (v : BitVec 16) (s : State) : OffersOnly s (setLatched o v s) := by
  unfold setLatched
  split
  · exact .refl s
  · exact ((setCondWord_offersOnly o (fun w => { w with latched := v }) s).trans (offerWord_offersOnly _ _ _)).trans
      (refreshAttention_offersOnly _)

theorem latchBit_offersOnly (o : Owner) (b : Nat) (s : State) : OffersOnly s (latchBit o b s) :=
  setLatched_offersOnly _ _ s

theorem latchChan_offersOnly (c : Chan) (k : ChanCond) (s : State) : OffersOnly s (latchChan c k s) :=
  latchBit_offersOnly _ _ s

theorem latchPart_offersOnly (k : PartCond) (s : State) : OffersOnly s (latchPart k s) := latchBit_offersOnly _ _ s

theorem clearShown_offersOnly (o : Owner) (v : BitVec 16) (s : State) : OffersOnly s (clearShown o v s) :=
  setLatched_offersOnly _ _ s

theorem offerChannelBlocks_offersOnly (cs : List Chan) (s : State) :
    OffersOnly s (cs.foldl (fun u c => offerChannelBlock c u) s) := by
  induction cs generalizing s with
  | nil => exact .refl s
  | cons c cs ih => exact (offerStatus_offersOnly _ _ s).trans (ih _)

theorem offerBlocks_offersOnly (s : State) : OffersOnly s (offerBlocks s) :=
  (offerChannelBlocks_offersOnly allChans s).trans (offerStatus_offersOnly _ _ _)

/-! ## Latched sets -/

@[simp] theorem condWordOf_refreshAttention (s : State) (o : Owner) :
    condWordOf (refreshAttention s).status o = condWordOf s.status o := by
  unfold refreshAttention
  split
  · rfl
  · rw [offerWord_status, modStatus_status]
    generalize attentionOf s.status = v
    cases o <;> rfl

/-- A latched set takes its new value, and keeps its published copy. -/
theorem condWordOf_setLatched_same (o : Owner) (v : BitVec 16) (s : State) :
    condWordOf (setLatched o v s).status o = { condWordOf s.status o with latched := v } := by
  unfold setLatched
  split
  · next h => rw [h]
  · simp

theorem condWordOf_setLatched_other {o p : Owner} (v : BitVec 16) (s : State) (h : p ≠ o) :
    condWordOf (setLatched o v s).status p = condWordOf s.status p := by
  unfold setLatched
  split
  · rfl
  · simp [condWordOf_setCondWord_other _ _ h]

theorem condWordOf_latchBit_same (o : Owner) (b : Nat) (s : State) :
    condWordOf (latchBit o b s).status o =
      { condWordOf s.status o with latched := (condWordOf s.status o).latched ||| condSet b } :=
  condWordOf_setLatched_same _ _ s

theorem condWordOf_latchBit_other {o p : Owner} (b : Nat) (s : State) (h : p ≠ o) :
    condWordOf (latchBit o b s).status p = condWordOf s.status p :=
  condWordOf_setLatched_other _ s h

/-- The summary of the latched sets does not depend on the summary held. -/
theorem attentionOf_summary (st : Status) (v : BitVec 17) : attentionOf { st with summary := v } = attentionOf st := by
  unfold attentionOf
  refine congrArg (fun l : List Nat => BitVec.ofNat 17 l.sum) (List.map_congr_left fun o _ => ?_)
  cases o <;> rfl

/-- R187: once refreshed, the summary is that of the latched sets and the mask. -/
theorem refreshAttention_sound (s : State) : AttentionSound (refreshAttention s).status := by
  unfold refreshAttention
  split
  · next h => exact h.symm
  · rw [offerWord_status, modStatus_status]
    exact (attentionOf_summary s.status _).symm

theorem setLatched_sound (o : Owner) (v : BitVec 16) (s : State) (h : AttentionSound s.status) :
    AttentionSound (setLatched o v s).status := by
  unfold setLatched
  split
  · exact h
  · exact refreshAttention_sound _

/-! ## Words offered -/

/-- An offered word waits with its latest content (R165, R166). -/
theorem wordOffered_offerWord (o : Nat) (d : List Byte) (s : State) : WordOffered o d (offerWord o d s) := by
  unfold WordOffered
  rw [offerWord_setup, offerWord_path]
  rcases offerWordTo_cases (setupBase s.setup.strap + o) d s.path with ⟨h, ha⟩ | ⟨h, -⟩ | ⟨h, -⟩
  · left
    rw [h]
    obtain ⟨e, he, hs⟩ := List.any_eq_true.mp ha
    have hk : e.kind ≠ .record ∧ e.addr = setupBase s.setup.strap + o := by simpa [sameAddress] using hs
    exact ⟨{ e with data := d }, List.mem_map.mpr ⟨e, he, if_pos hs⟩, hk.1, hk.2, rfl⟩
  · left
    rw [h]
    exact ⟨_, List.mem_append_right _ (List.mem_singleton.mpr rfl), by simp, rfl, rfl⟩
  · right
    rw [h]
    generalize s.path.deferred = m
    induction m with
    | nil => simp [putStore]
    | cons x rest ih =>
      obtain ⟨j, w⟩ := x
      unfold putStore
      split
      · exact .head _
      · split
        · exact .head _
        · exact .tail _ ih

/-- A content in a store stays there when another key is put. -/
theorem mem_putStore_other {α : Type} {m : Store α} {j k : Nat} {v w : α} (h : (j, w) ∈ m) (hne : j ≠ k) :
    (j, w) ∈ putStore m k v := by
  induction m with
  | nil => cases h
  | cons x rest ih =>
    obtain ⟨i, u⟩ := x
    unfold putStore
    split
    · exact .tail _ h
    · split
      · next hi =>
        cases h with
        | head => exact absurd hi hne
        | tail _ h => exact .tail _ h
      · cases h with
        | head => exact .head _
        | tail _ h => exact .tail _ (ih h)

/-- Replacing the data of one address leaves every entry of another. -/
theorem mem_replaceData_other {q : List OutEntry} {a : Nat} {d : List Byte} {e : OutEntry} (h : e ∈ q) (hne : e.addr ≠ a) :
    e ∈ replaceData a d q :=
  List.mem_map.mpr ⟨e, h, if_neg (by simp [sameAddress, hne])⟩

/-- An offered word still waits after another word is offered. -/
theorem wordOffered_offerWord_other {o p : Nat} {d : List Byte} (x : List Byte) {s : State} (hne : o ≠ p)
    (h : WordOffered o d s) : WordOffered o d (offerWord p x s) := by
  unfold WordOffered at h ⊢
  rw [offerWord_setup, offerWord_path]
  have hna : setupBase s.setup.strap + o ≠ setupBase s.setup.strap + p := by omega
  rcases offerWordTo_cases (setupBase s.setup.strap + p) x s.path with ⟨k, -⟩ | ⟨k, -⟩ | ⟨k, -⟩ <;> rw [k]
  · rcases h with ⟨e, he, hk, ha, hd⟩ | h
    · exact .inl ⟨e, mem_replaceData_other he (ha ▸ hna), hk, ha, hd⟩
    · exact .inr h
  · rcases h with ⟨e, he, hk, ha, hd⟩ | h
    · exact .inl ⟨e, List.mem_append_left _ he, hk, ha, hd⟩
    · exact .inr h
  · rcases h with h | h
    · exact .inl h
    · exact .inr (mem_putStore_other h hna)

/-- An offered word still waits after a status block is offered. -/
theorem wordOffered_offerStatus_other {o p : Nat} {d : List Byte} (x : List Byte) {s : State} (hne : o ≠ p)
    (h : WordOffered o d s) : WordOffered o d (offerStatus p x s) := by
  unfold WordOffered at h ⊢
  rw [offerStatus_setup, offerStatus_path]
  have hna : setupBase s.setup.strap + o ≠ setupBase s.setup.strap + p := by omega
  rcases offerStatusTo_cases (setupBase s.setup.strap + p) x s.path with ⟨k, -⟩ | ⟨k, -⟩ | ⟨k, -⟩ <;> rw [k]
  · rcases h with ⟨e, he, hk, ha, hd⟩ | h
    · exact .inl ⟨e, mem_replaceData_other he (ha ▸ hna), hk, ha, hd⟩
    · exact .inr h
  · rcases h with ⟨e, he, hk, ha, hd⟩ | h
    · exact .inl ⟨e, List.mem_append_left _ he, hk, ha, hd⟩
    · exact .inr h
  · exact h

/-- An offered word that is no status block still waits after the 17 blocks are offered. -/
theorem wordOffered_offerBlocks {o : Nat} {d : List Byte} {s : State} (ho : o < 0x2400) (h : WordOffered o d s) :
    WordOffered o d (offerBlocks s) := by
  have hall : ∀ (cs : List Chan) (t : State), WordOffered o d t →
      WordOffered o d (cs.foldl (fun u c => offerChannelBlock c u) t) := by
    intro cs
    induction cs with
    | nil => exact fun _ h => h
    | cons c cs ih =>
      exact fun t h => ih _ (wordOffered_offerStatus_other _ (by simp only [statusBlockAt]; omega) h)
  exact wordOffered_offerStatus_other _ (by simp only [statusBlockAt]; omega) (hall _ _ h)

/-- A command's end offers its status word. -/
theorem wordOffered_endCommand (r : Running) (res : CommandResult) (check : Nat) (s : State) :
    WordOffered 0x2000
      (commandStatusWord r.tag r.code res r.isPartial (decide (1 ≤ r.clamped)) r.geometryHeld check r.clamped)
      (endCommand r res check s) :=
  wordOffered_offerBlocks (by decide) (wordOffered_offerWord commandStatusAt _ s)

/-- A command's end makes the command state READY and leaves every block's state. -/
theorem endCommand_rest (r : Running) (res : CommandResult) (check : Nat) (s : State) :
    OffersOnly (setCommand .ready s) (endCommand r res check s) := by
  have h : OffersOnly (setCommand .ready s)
      (setCommand .ready
        (offerWord commandStatusAt
          (commandStatusWord r.tag r.code res r.isPartial (decide (1 ≤ r.clamped)) r.geometryHeld check r.clamped) s)) :=
    offerWord_offersOnly _ _ (setCommand .ready s)
  exact h.trans (offerBlocks_offersOnly _)

/-! ## Records and flushes -/

/-- A record produced with room in the record queue enters at its tail. -/
theorem produce_room (r : Record) (s : State) (h : s.ring.queue.length < 64) :
    produce r s = modRing (fun g => { g with queue := g.queue ++ [r] }) s := if_pos h

/-- A record produced with the record queue full is lost: the loss episode opens or is extended. -/
theorem produce_full_ring (r : Record) (s : State) (h : 64 ≤ s.ring.queue.length) :
    (produce r s).ring = { s.ring with loss := some (extendLoss s.ms s.ring.loss) } := by
  unfold produce
  rw [if_neg (by omega), modRing_ring, (latchPart_offersOnly _ _).ring]
  rfl

/-- Producing a record changes no channel, no strand, nothing of the setup unit. -/
theorem produce_rest (r : Record) (s : State) :
    (produce r s).chans = s.chans ∧ (produce r s).strands = s.strands ∧ (produce r s).setup = s.setup ∧
      (produce r s).engine = s.engine ∧ (produce r s).path.list = s.path.list ∧ (produce r s).ms = s.ms := by
  unfold produce
  split
  · simp
  · have h := latchPart_offersOnly .recordsLost (modPartCounters (fun k => { k with recordsLost := sat16 (k.recordsLost + 1) }) s)
    exact ⟨h.chans, h.strands, h.setup, h.engine, h.list, h.ms⟩

/-- A flush request sets the pending flag or does nothing. -/
theorem requestFlushOn_cases (found : Ring) (s : State) :
    requestFlushOn found s = s ∨ requestFlushOn found s = modRing (fun r => { r with flushPending := true }) s := by
  unfold requestFlushOn
  split
  · exact .inl rfl
  · split
    · exact .inr rfl
    · exact .inl rfl

/-- A flush request that finds the ring as it stands sets the pending flag or does nothing. -/
theorem requestFlush_cases (s : State) :
    requestFlush s = s ∨ requestFlush s = modRing (fun r => { r with flushPending := true }) s :=
  requestFlushOn_cases s.ring s

/-- R141: where the placement of the B-th record cannot come with it, a batch age expiry finds the ring as it stands. -/
theorem ringAtExpiry_alone (s : State)
    (h : ∀ i, placeableSlot s = some i → s.ring.queue = [] ∨ placesOf s.ring i + 1 ≠ heldB s) :
    ringAtExpiry s = s.ring := by
  unfold ringAtExpiry
  split
  · next i hi => exact if_neg fun hq => (h i hi).elim hq.1 (fun hn => hn hq.2)
  · rfl

/-- R141: where it can, the expiry finds the ring as the placement leaves it. -/
theorem ringAtExpiry_tie (s : State) (i : Nat) (hp : placeableSlot s = some i) (hq : s.ring.queue ≠ [])
    (hb : placesOf s.ring i + 1 = heldB s) :
    ringAtExpiry s = placedRing s.ms (heldB s) i (placesOf s.ring i) s.ring := by
  simp [ringAtExpiry, hp, hq, hb]

/-- Discarding a flush clears the pending flag or does nothing. -/
theorem discardFlush_cases (r : Ring) : discardFlush r = r ∨ discardFlush r = { r with flushPending := false } := by
  unfold discardFlush
  split
  · split
    · exact .inr rfl
    · exact .inl rfl
  · exact .inl rfl
  · exact .inl rfl

/-! ## Held trailers -/

/-- A release takes the trailer off its channel's list and changes its transaction; every other channel stays. -/
theorem releaseTrailer_chan_other {c d : Chan} (h : HeldTrailer) (w : Word64) (s : State) (hd : d ≠ c) :
    (releaseTrailer c h w s).chan d = s.chan d :=
  chan_modChan_other _ _ hd

theorem releaseTrailer_chan_same (c : Chan) (h : HeldTrailer) (w : Word64) (s : State) :
    (releaseTrailer c h w s).chan c = { s.chan c with held := (s.chan c).held.filter fun k => decide (k ≠ h) } :=
  chan_modChan_same _ _ _

@[simp] theorem releaseTrailer_list (c : Chan) (h : HeldTrailer) (w : Word64) (s : State) :
    (releaseTrailer c h w s).path.list =
      s.path.list.map fun t =>
        if t.id = h.txn then { t with held := false, body := rewriteBody h.beat w t.body } else t := rfl

/-! ## The order of delivery -/

theorem mem_insertByRank (rank : Chan → Nat) (x y : Chan) (l : List Chan) :
    y ∈ insertByRank rank x l ↔ y = x ∨ y ∈ l := by
  induction l with
  | nil => simp [insertByRank]
  | cons z zs ih =>
    unfold insertByRank
    split
    · simp
    · simp only [List.mem_cons, ih]; tauto

theorem perm_insertByRank (rank : Chan → Nat) (x : Chan) (l : List Chan) :
    List.Perm (insertByRank rank x l) (x :: l) := by
  induction l with
  | nil => exact .refl _
  | cons z zs ih =>
    unfold insertByRank
    split
    · exact .refl _
    · exact (ih.cons z).trans (.swap x z zs)

theorem perm_sortByRank (rank : Chan → Nat) (l : List Chan) : List.Perm (sortByRank rank l) l := by
  induction l with
  | nil => exact .refl _
  | cons x xs ih => exact (perm_insertByRank rank x _).trans (ih.cons x)

theorem mem_allChans (c : Chan) : c ∈ allChans := by
  fin_cases c <;> decide

/-- A command's delivery reaches exactly the channels of its mask. -/
theorem mem_deliveryOrder (n : Nat) (mask : BitVec 16) (c : Chan) :
    c ∈ deliveryOrder n mask ↔ mask.getLsbD c.val = true := by
  unfold deliveryOrder
  rw [(perm_sortByRank _ _).mem_iff, List.mem_filter]
  exact ⟨fun h => h.2, fun h => ⟨mem_allChans c, h⟩⟩

/-- A command's delivery reaches each channel once. -/
theorem nodup_deliveryOrder (n : Nat) (mask : BitVec 16) : (deliveryOrder n mask).Nodup := by
  unfold deliveryOrder
  refine (perm_sortByRank _ _).nodup_iff.mpr (List.Nodup.filter _ ?_)
  decide

end Sys2Proof.Machine
end

