-- ==== Sys2Proof/Laws/Channels.lean ====
section
/-! SUPPORT. What the channel unit, the track table and the classifier leave of other channels, of the setup unit and of time. -/

namespace Sys2Proof.Machine

/-- From `s` to `t` no channel but `c` changes, and neither the setup unit, the engine, the two counts nor the reset line. -/
structure OnlyChan (c : Chan) (s t : State) : Prop where
  others : ∀ d, d ≠ c → t.chan d = s.chan d
  setup : t.setup = s.setup
  engine : t.engine = s.engine
  us : t.us = s.us
  ms : t.ms = s.ms
  usInMs : t.usInMs = s.usInMs
  resetLine : t.resetLine = s.resetLine
  mfIn : t.mfIn = s.mfIn
  pending : t.pending = s.pending

theorem OnlyChan.refl (c : Chan) (s : State) : OnlyChan c s s := ⟨fun _ _ => rfl, rfl, rfl, rfl, rfl, rfl, rfl, rfl, rfl⟩

theorem OnlyChan.trans {c : Chan} {s t u : State} (h : OnlyChan c s t) (k : OnlyChan c t u) : OnlyChan c s u where
  others d hd := (k.others d hd).trans (h.others d hd)
  setup := k.setup.trans h.setup
  engine := k.engine.trans h.engine
  us := k.us.trans h.us
  ms := k.ms.trans h.ms
  usInMs := k.usInMs.trans h.usInMs
  resetLine := k.resetLine.trans h.resetLine
  mfIn := k.mfIn.trans h.mfIn
  pending := k.pending.trans h.pending

theorem OffersOnly.onlyChan {s t : State} (c : Chan) (h : OffersOnly s t) : OnlyChan c s t where
  others d _ := h.chan d
  setup := h.setup
  engine := h.engine
  us := h.us
  ms := h.ms
  usInMs := h.usInMs
  resetLine := h.resetLine
  mfIn := h.mfIn
  pending := h.pending

section Updates

variable (c : Chan) (s : State)

theorem modChan_onlyChan (f : Channel → Channel) : OnlyChan c s (modChan c f s) :=
  ⟨fun _ hd => chan_modChan_other s f hd, rfl, rfl, rfl, rfl, rfl, rfl, rfl, rfl⟩

theorem modRecord_onlyChan (f : ChanRecord → ChanRecord) : OnlyChan c s (modRecord c f s) := modChan_onlyChan c s _

theorem modTallies_onlyChan (f : Tallies → Tallies) : OnlyChan c s (modTallies c f s) := modRecord_onlyChan c s _

theorem modCapture_onlyChan (f : Capture → Capture) : OnlyChan c s (modCapture c f s) := modChan_onlyChan c s _

theorem modBand_onlyChan (f : Band → Band) : OnlyChan c s (modBand c f s) := modChan_onlyChan c s _

theorem modRing_onlyChan (f : Ring → Ring) : OnlyChan c s (modRing f s) :=
  ⟨fun _ _ => rfl, rfl, rfl, rfl, rfl, rfl, rfl, rfl, rfl⟩

theorem modPath_onlyChan (f : Path → Path) : OnlyChan c s (modPath f s) :=
  ⟨fun _ _ => rfl, rfl, rfl, rfl, rfl, rfl, rfl, rfl, rfl⟩

theorem modStatus_onlyChan (f : Status → Status) : OnlyChan c s (modStatus f s) :=
  ⟨fun _ _ => rfl, rfl, rfl, rfl, rfl, rfl, rfl, rfl, rfl⟩

theorem modStrand_onlyChan (k : Strand) (f : StrandState → StrandState) : OnlyChan c s (modStrand k f s) :=
  ⟨fun _ _ => rfl, rfl, rfl, rfl, rfl, rfl, rfl, rfl, rfl⟩

theorem modCounters_onlyChan (d : Chan) (f : ChanCounters → ChanCounters) : OnlyChan c s (modCounters d f s) :=
  modStatus_onlyChan c s _

theorem modPartCounters_onlyChan (f : PartCounters → PartCounters) : OnlyChan c s (modPartCounters f s) :=
  modStatus_onlyChan c s _

theorem latchChan_onlyChan (k : ChanCond) : OnlyChan c s (latchChan c k s) := (latchChan_offersOnly c k s).onlyChan c

theorem latchPart_onlyChan (k : PartCond) : OnlyChan c s (latchPart k s) := (latchPart_offersOnly k s).onlyChan c

theorem produce_onlyChan (r : Record) : OnlyChan c s (produce r s) := by
  unfold produce
  split
  · exact modRing_onlyChan c s _
  · exact ((modPartCounters_onlyChan c s _).trans (latchPart_onlyChan c _ _)).trans (modRing_onlyChan c _ _)

theorem requestFlush_onlyChan : OnlyChan c s (requestFlush s) := by
  rcases requestFlush_cases s with h | h <;> rw [h]
  · exact .refl c s
  · exact modRing_onlyChan c s _

end Updates

/-! ## Closures and records -/

theorem requestMark_onlyChan (c d : Chan) (trigger : Word32) (s : State) : OnlyChan c s (requestMark d trigger s) := by
  unfold requestMark
  split
  · exact (modPartCounters_onlyChan c s _).trans (latchPart_onlyChan c _ _)
  · exact (modPartCounters_onlyChan c s _).trans (latchPart_onlyChan c _ _)
  · exact modStrand_onlyChan c s _ _
  all_goals exact .refl c s

theorem requestFor_onlyChan (c : Chan) (set : ParamSet) (e : Profile) (k : Closure) (s : State) :
    OnlyChan c s (requestFor c set e k s) := by
  unfold requestFor
  split
  · split
    · exact requestMark_onlyChan c c _ s
    · exact .refl c s
  · exact .refl c s

theorem classify_onlyChan (c : Chan) (set : ParamSet) (k : Closure) (s : State) : OnlyChan c s (classify c set k s) := by
  unfold classify
  split
  · exact ((modRecord_onlyChan c s _).trans (requestFor_onlyChan c set _ k _)).trans (produce_onlyChan c _ _)
  · exact (modCounters_onlyChan c s c _).trans (modTallies_onlyChan c _ _)

theorem classifyTracks_onlyChan (c : Chan) (set : ParamSet) (cause : Cause) (ts : List Track) (s : State) :
    OnlyChan c s (classifyTracks c set cause ts s) := by
  unfold classifyTracks
  induction ts generalizing s with
  | nil => exact .refl c s
  | cons t ts ih => exact (classify_onlyChan c set _ s).trans (ih _)

theorem closeTracks_onlyChan (c : Chan) (cause : Cause) (s : State) : OnlyChan c s (closeTracks c cause s) :=
  (modChan_onlyChan c s _).trans (classifyTracks_onlyChan c _ cause _ _)

theorem recomputePitch_onlyChan (c : Chan) (s : State) : OnlyChan c s (recomputePitch c s) := modChan_onlyChan c s _

theorem testEpisode_onlyChan (c : Chan) (set : ParamSet) (e : Episode) (cause : Cause) (s : State) :
    OnlyChan c s (testEpisode c set e cause s) := by
  unfold testEpisode
  simp only
  split
  · exact (modBand_onlyChan c s _).trans (modTallies_onlyChan c _ _)
  · split
    · exact ((modBand_onlyChan c s _).trans (recomputePitch_onlyChan c _)).trans (modTallies_onlyChan c _ _)
    · exact (modTallies_onlyChan c s _).trans (classify_onlyChan c set _ _)

theorem closeEpisode_onlyChan (c : Chan) (set : ParamSet) (cause : Cause) (s : State) :
    OnlyChan c s (closeEpisode c set cause s) := by
  unfold closeEpisode
  simp only
  split
  · exact .refl c s
  all_goals exact (modBand_onlyChan c s _).trans (testEpisode_onlyChan c set _ cause _)

theorem closeAll_onlyChan (c : Chan) (cause : Cause) (s : State) : OnlyChan c s (closeAll c cause s) :=
  (closeTracks_onlyChan c cause s).trans (closeEpisode_onlyChan c _ cause _)

theorem endBillet_onlyChan (c : Chan) (cause : Cause) (ending : BilletEnd) (s : State) :
    OnlyChan c s (endBillet c cause ending s) :=
  (closeAll_onlyChan c cause s).trans (produce_onlyChan c _ _)

theorem billetTail_onlyChan (c : Chan) (s : State) : OnlyChan c s (billetTail c s) := by
  have h := (modRecord_onlyChan c s (settleRecord .waiting)).trans (endBillet_onlyChan c .tail .tail _)
  unfold billetTail
  simp only
  split
  · exact h.trans (requestFlush_onlyChan c _)
  · exact h

theorem abandonBillet_onlyChan (c : Chan) (s : State) : OnlyChan c s (abandonBillet c s) :=
  ((modRecord_onlyChan c s _).trans (endBillet_onlyChan c _ _ _)).trans (latchChan_onlyChan c _ _)

/-! ## Retirement and the head of the queue -/

theorem switchParams_onlyChan (c : Chan) (s : State) : OnlyChan c s (switchParams c s) := by
  unfold switchParams
  split
  · exact (modChan_onlyChan c s _).trans (recomputePitch_onlyChan c _)
  · exact .refl c s

theorem switchInspecting_onlyChan (c : Chan) (s : State) : OnlyChan c s (switchInspecting c s) := by
  unfold switchInspecting
  split
  · exact switchParams_onlyChan c s
  all_goals exact .refl c s

theorem blindTest_onlyChan (c : Chan) (s : State) : OnlyChan c s (blindTest c s) := by
  unfold blindTest
  split
  · exact (((closeTracks_onlyChan c _ s).trans (closeEpisode_onlyChan c _ _ _)).trans (modBand_onlyChan c _ _)).trans
      (modCapture_onlyChan c _ _)
  · exact .refl c s

theorem addUnseen_onlyChan (c : Chan) (n : Nat) (s : State) : OnlyChan c s (addUnseen c n s) := by
  have h := (modCapture_onlyChan c s fun k => { k with unseenRun := sat16 (k.unseenRun + n) }).trans
    (modCounters_onlyChan c _ c fun k => { k with unseen := sat16 (k.unseen + n) })
  unfold addUnseen
  simp only
  split
  · exact h.trans (modTallies_onlyChan c _ _)
  · exact h

theorem placeUnseen_onlyChan (c : Chan) (s : State) : OnlyChan c s (placeUnseen c s) := by
  unfold placeUnseen
  split
  · exact modCapture_onlyChan c s _
  · exact (addUnseen_onlyChan c 1 s).trans (blindTest_onlyChan c _)

theorem clearRun_onlyChan (c : Chan) (k : Seen) (s : State) : OnlyChan c s (clearRun c k s) := by
  unfold clearRun
  split
  · exact modCapture_onlyChan c s _
  · exact .refl c s
  · exact .refl c s

theorem retire_onlyChan (c : Chan) (e : Fin 2) (k : Seen) (s : State) : OnlyChan c s (retire c e k s) :=
  (((clearRun_onlyChan c k s).trans (addUnseen_onlyChan c _ _)).trans (blindTest_onlyChan c _)).trans
    (modCapture_onlyChan c _ _)

theorem actOnHead_onlyChan (c : Chan) (e : Fin 2) (k : LineClass) (s : State) : OnlyChan c s (actOnHead c e k s) := by
  cases k <;> simp only [actOnHead]
  case noBillet =>
    split
    · exact (switchInspecting_onlyChan c s).trans (billetTail_onlyChan c _)
    · exact .refl c s
  case toAnalyse =>
    split
    · exact modChan_onlyChan c s _
    · exact .refl c s
  all_goals exact switchInspecting_onlyChan c s

theorem serveHead_onlyChan (c : Chan) (n : Nat) (s : State) : OnlyChan c s (serveHead c n s) := by
  induction n generalizing s with
  | zero => exact .refl c s
  | succ n ih =>
    unfold serveHead
    split
    · exact .refl c s
    · split
      · exact .refl c s
      · exact actOnHead_onlyChan c _ _ s
      · exact ((actOnHead_onlyChan c _ _ s).trans (retire_onlyChan c _ _ _)).trans (ih _)

/-! ## Content beats of a replay slot (R23) -/

theorem mergeLine_onlyChan (c : Chan) (n : Nat) (b : Beat) (s : State) : OnlyChan c s (mergeLine c n b s) := by
  unfold mergeLine
  split
  · exact modCapture_onlyChan c s _
  · exact .refl c s

theorem ownBeat_onlyChan (c : Chan) (n : Nat) (b : Beat) (s : State) : OnlyChan c s (ownBeat c n b s) := by
  unfold ownBeat
  split
  · exact mergeLine_onlyChan c n b s
  · exact .refl c s
  · exact .refl c s

/-- A beat of a slot that nobody owns does nothing; one of an owned slot touches its owner alone. -/
theorem replayContent_cases (j n : Nat) (b : Beat) (s : State) :
    replayOwner s j = none ∧ replayContent j n b s = s ∨
      ∃ c, replayOwner s j = some c ∧ OnlyChan c s (replayContent j n b s) := by
  unfold replayContent
  cases replayOwner s j with
  | none => exact .inl ⟨rfl, rfl⟩
  | some c => exact .inr ⟨c, rfl, ownBeat_onlyChan c n b s⟩

end Sys2Proof.Machine
end

