-- ==== Sys2Proof/Laws/Store.lean ====
section
/-! SUPPORT. The laws of the sparse stores: a read after a write, and the canonical form kept by every operation. -/

namespace Sys2Proof.Machine

variable {α : Type}

/-! ## What a read sees -/

theorem readStore_putStore_same (d : α) (m : Store α) (k : Nat) (v : α) : readStore d (putStore m k v) k = v := by
  induction m with
  | nil => simp [putStore, readStore]
  | cons x rest ih =>
    obtain ⟨j, w⟩ := x
    unfold putStore
    split
    · simp [readStore]
    · split
      · simp [readStore]
      · next h => simp [readStore, h, ih]

theorem readStore_putStore_other (d : α) (m : Store α) {k i : Nat} (v : α) (h : i ≠ k) :
    readStore d (putStore m k v) i = readStore d m i := by
  induction m with
  | nil => simp [putStore, readStore, Ne.symm h]
  | cons x rest ih =>
    obtain ⟨j, w⟩ := x
    unfold putStore
    split
    · simp [readStore, Ne.symm h]
    · split
      · next hj => subst hj; simp [readStore, Ne.symm h]
      · by_cases hi : j = i <;> simp [readStore, hi, ih]

theorem readStore_dropStore_other (d : α) (m : Store α) {k i : Nat} (h : i ≠ k) :
    readStore d (dropStore m k) i = readStore d m i := by
  induction m with
  | nil => rfl
  | cons x rest ih =>
    obtain ⟨j, w⟩ := x
    unfold dropStore
    split
    · next hj => subst hj; simp [readStore, Ne.symm h]
    · by_cases hi : j = i <;> simp [readStore, hi, ih]

section Canonical

variable [DecidableEq α]

/-- A lower bound on the keys may be lowered. -/
theorem storeFrom_mono (d : α) {lo hi : Nat} (m : Store α) (h : lo ≤ hi) (hm : storeFrom d hi m = true) :
    storeFrom d lo m = true := by
  cases m with
  | nil => rfl
  | cons x rest =>
    obtain ⟨j, w⟩ := x
    simp only [storeFrom, Bool.and_eq_true, decide_eq_true_eq] at hm ⊢
    exact ⟨⟨by omega, hm.1.2⟩, hm.2⟩

/-- A key below every listed one reads as the default. -/
theorem readStore_below (d : α) {lo k : Nat} (m : Store α) (h : k < lo) (hm : storeFrom d lo m = true) :
    readStore d m k = d := by
  induction m generalizing lo with
  | nil => rfl
  | cons x rest ih =>
    obtain ⟨j, w⟩ := x
    simp only [storeFrom, Bool.and_eq_true, decide_eq_true_eq] at hm
    have hj : j ≠ k := by omega
    simp only [readStore, hj, if_false]
    exact ih (by omega) hm.2

theorem readStore_dropStore_same (d : α) {lo : Nat} (m : Store α) (k : Nat) (hm : storeFrom d lo m = true) :
    readStore d (dropStore m k) k = d := by
  induction m generalizing lo with
  | nil => rfl
  | cons x rest ih =>
    obtain ⟨j, w⟩ := x
    simp only [storeFrom, Bool.and_eq_true, decide_eq_true_eq] at hm
    unfold dropStore
    split
    · next hj => exact readStore_below d rest (by omega) hm.2
    · next hj =>
      simp only [readStore, hj, if_false]
      exact ih hm.2

/-- A read after a write: the written key holds the value written. -/
theorem readStore_writeStore_same (d : α) {lo : Nat} (m : Store α) (k : Nat) (v : α) (hm : storeFrom d lo m = true) :
    readStore d (writeStore d m k v) k = v := by
  unfold writeStore
  split
  · next h => rw [readStore_dropStore_same d m k hm, h]
  · exact readStore_putStore_same d m k v

/-- A read after a write: every other key holds what it held. -/
theorem readStore_writeStore_other (d : α) (m : Store α) {k i : Nat} (v : α) (h : i ≠ k) :
    readStore d (writeStore d m k v) i = readStore d m i := by
  unfold writeStore
  split
  · exact readStore_dropStore_other d m h
  · exact readStore_putStore_other d m v h

/-! ## The canonical form -/

theorem storeFrom_putStore (d : α) {lo : Nat} (m : Store α) (k : Nat) (v : α) (hk : lo ≤ k) (hv : v ≠ d)
    (hm : storeFrom d lo m = true) : storeFrom d lo (putStore m k v) = true := by
  induction m generalizing lo with
  | nil => simp [putStore, storeFrom, hk, hv]
  | cons x rest ih =>
    obtain ⟨j, w⟩ := x
    simp only [storeFrom, Bool.and_eq_true, decide_eq_true_eq] at hm
    unfold putStore
    split
    · simp only [storeFrom, Bool.and_eq_true, decide_eq_true_eq]
      exact ⟨⟨hk, hv⟩, ⟨by omega, hm.1.2⟩, hm.2⟩
    · split
      · next hj =>
        subst hj
        simp only [storeFrom, Bool.and_eq_true, decide_eq_true_eq]
        exact ⟨⟨hk, hv⟩, hm.2⟩
      · simp only [storeFrom, Bool.and_eq_true, decide_eq_true_eq]
        exact ⟨hm.1, ih (by omega) hm.2⟩

theorem storeFrom_dropStore (d : α) {lo : Nat} (m : Store α) (k : Nat) (hm : storeFrom d lo m = true) :
    storeFrom d lo (dropStore m k) = true := by
  induction m generalizing lo with
  | nil => rfl
  | cons x rest ih =>
    obtain ⟨j, w⟩ := x
    simp only [storeFrom, Bool.and_eq_true, decide_eq_true_eq] at hm
    unfold dropStore
    split
    · exact storeFrom_mono d rest (by omega) hm.2
    · simp only [storeFrom, Bool.and_eq_true, decide_eq_true_eq]
      exact ⟨hm.1, ih hm.2⟩

theorem wfStore_writeStore (d : α) (m : Store α) (k : Nat) (v : α) (hm : wfStore d m = true) :
    wfStore d (writeStore d m k v) = true := by
  unfold writeStore
  split
  · exact storeFrom_dropStore d m k hm
  · next h => exact storeFrom_putStore d m k v (Nat.zero_le k) h hm

theorem storeFrom_storeOfFn (d : α) (f : Nat → α) (lo n : Nat) : storeFrom d lo (storeOfFn d f lo n) = true := by
  induction n generalizing lo with
  | zero => rfl
  | succ n ih =>
    unfold storeOfFn
    split
    · exact storeFrom_mono d _ (Nat.le_succ lo) (ih (lo + 1))
    · next h =>
      simp only [storeFrom, Bool.and_eq_true, decide_eq_true_eq]
      exact ⟨⟨Nat.le_refl lo, h⟩, ih (lo + 1)⟩

theorem wfStore_storeOfFn (d : α) (f : Nat → α) (n : Nat) : wfStore d (storeOfFn d f 0 n) = true :=
  storeFrom_storeOfFn d f 0 n

/-- The store of a function reads as the function over its keys, and as the default elsewhere. -/
theorem readStore_storeOfFn (d : α) (f : Nat → α) (lo n k : Nat) :
    readStore d (storeOfFn d f lo n) k = if lo ≤ k ∧ k < lo + n then f k else d := by
  induction n generalizing lo with
  | zero => simp [storeOfFn, readStore]
  | succ n ih =>
    unfold storeOfFn
    by_cases hk : lo = k
    · subst hk
      split
      · next h => rw [ih, h]; simp
      · simp [readStore]
    · have hc : (lo + 1 ≤ k ∧ k < lo + 1 + n) ↔ (lo ≤ k ∧ k < lo + (n + 1)) := by omega
      split
      · rw [ih]; simp only [hc]
      · simp only [readStore, hk, if_false]; rw [ih]; simp only [hc]

end Canonical

/-! ## Bytes and beats merged under their enables (R7, R172) -/

theorem wfStore_mergeByte (m : Store Byte) (k : Nat) (en : Bool) (b : Byte) (hm : wfStore 0 m = true) :
    wfStore 0 (mergeByte m k en b) = true := by
  unfold mergeByte
  split
  · exact wfStore_writeStore 0 m k b hm
  · exact hm

theorem readStore_mergeByte_same (m : Store Byte) (k : Nat) (en : Bool) (b : Byte) (hm : wfStore 0 m = true) :
    readStore 0 (mergeByte m k en b) k = if en then b else readStore 0 m k := by
  unfold mergeByte
  split
  · exact readStore_writeStore_same 0 m k b hm
  · rfl

theorem readStore_mergeByte_other (m : Store Byte) {k i : Nat} (en : Bool) (b : Byte) (h : i ≠ k) :
    readStore 0 (mergeByte m k en b) i = readStore 0 m i := by
  unfold mergeByte
  split
  · exact readStore_writeStore_other 0 m b h
  · rfl

theorem wfStore_mergeBeat (allowed : Nat → Bool) (k : Nat) (w : Word64) (en : BitVec 8) (n : Nat) (m : Store Byte)
    (hm : wfStore 0 m = true) : wfStore 0 (mergeBeat allowed k w en n m) = true := by
  induction n generalizing m with
  | zero => exact hm
  | succ n ih => exact ih _ (wfStore_mergeByte _ _ _ _ hm)

/-- What a byte holds after the last `n` bytes of a beat at key `k` are merged. -/
theorem readStore_mergeBeat (allowed : Nat → Bool) (k : Nat) (w : Word64) (en : BitVec 8) (n : Nat) (m : Store Byte)
    (i : Nat) (hn : n ≤ 8) (hm : wfStore 0 m = true) :
    readStore 0 (mergeBeat allowed k w en n m) i =
      if k + (8 - n) ≤ i ∧ i < k + 8 ∧ en.getLsbD (i - k) = true ∧ allowed i = true then byteOf w (i - k)
      else readStore 0 m i := by
  induction n generalizing m with
  | zero => simp only [mergeBeat]; rw [if_neg]; omega
  | succ n ih =>
    simp only [mergeBeat]
    rw [ih _ (by omega) (wfStore_mergeByte _ _ _ _ hm)]
    by_cases hi : i = k + (7 - n)
    · subst hi
      rw [readStore_mergeByte_same _ _ _ _ hm, if_neg (by omega), Nat.add_sub_cancel_left]
      have h2 : k + (7 - n) < k + 8 := by omega
      simp [h2]
    · rw [readStore_mergeByte_other _ _ _ hi]
      have hc : (k + (8 - n) ≤ i ∧ i < k + 8 ∧ en.getLsbD (i - k) = true ∧ allowed i = true) ↔
          (k + (8 - (n + 1)) ≤ i ∧ i < k + 8 ∧ en.getLsbD (i - k) = true ∧ allowed i = true) := by
        constructor <;> rintro ⟨a, b, c⟩ <;> exact ⟨by omega, b, c⟩
      simp only [hc]

end Sys2Proof.Machine
end

