-- ==== Sys2Proof/Tests/Slice0.lean ====
section
/-! SUPPORT. The model's own tests: ill-formed commands, the manual's worked examples, single steps, and states that meet the
hypotheses of the statements. -/

namespace Sys2Proof.Tests

open Sys2Proof.Machine Sys2Proof.Safety

/-! ## Ill-formed commands are refused by the check -/

/-- A written beat. -/
def beat : Beat := { data := 0, enables := 255 }

theorem test_wellFormed_refuses_unaligned_write : (Instr.systemWrite 0 4 [beat]).wellFormed = false := by decide

theorem test_wellFormed_refuses_empty_write : (Instr.systemWrite 0 8 []).wellFormed = false := by decide

theorem test_wellFormed_refuses_17_beats : (Instr.systemRead 8 17).wellFormed = false := by decide

theorem test_wellFormed_refuses_empty_read : (Instr.systemRead 8 0).wellFormed = false := by decide

theorem test_wellFormed_refuses_known_code_as_unknown : (Instr.unknownCommand 8 0 0).wellFormed = false := by decide

theorem test_wellFormed_refuses_stage_outside_host_regions : (Instr.stagedWrite 0x148 [beat]).wellFormed = false := by
  decide

theorem test_wellFormed_refuses_read_without_data : (Instr.batchTake 0 []).wellFormed = false := by decide

theorem test_wellFormed_refuses_condition_read_without_data : (Instr.conditionWordRead 0 []).wellFormed = false := by
  decide

theorem test_wellFormed_refuses_long_return :
    (Instr.readDataReturn 0 .ok (List.replicate 17 0)).wellFormed = false := by decide

theorem test_wellFormed_accepts_16_beats : (Instr.systemRead 8 16).wellFormed = true := by decide

/-! ## The manual's worked examples -/

/-- R38: 5,000 counts at SCALE 10,053,091 are 766,990 µm. -/
theorem test_position_example : position 5100 100 10053091 = 766990 := by decide

/-- R1: with W = 1024 the slot size is 1088. -/
theorem test_slotSize_1024 : slotSize 1024 = 1088 := by decide

/-- R171: straps reading 5 place the setup block at 0x2800_0000. -/
theorem test_setupBase_5 : setupBase 5 = 0x28000000 := by decide

/-- R79's table, with P = 12,000, PTOL = 1,500 and previous centre 100,000. -/
theorem test_onPitch_examples :
    ([112900, 124600, 118000, 135400, 104000, 160200, 99000].map fun c => onPitch (spacingOf c 100000) 12000 1500) =
      [true, true, false, true, false, false, false] := by decide

/-- R80: the episode of centre 124,600 gives the sample 12,300. -/
theorem test_pitchSample_example : pitchSample (spacingOf 124600 100000) 12000 = 12300 := by decide

/-- A track with a current span, for the examples of matching. -/
def spanTrack (id : Nat) (seq : Word32) (lo hi : Nat) : Track :=
  { id := id, firstSeq := seq, firstCount := 0, firstPos := 0, lastPos := 0, spanLo := lo, spanHi := hi, overLo := lo
    overHi := hi, area := 1, peak := 0, sum := 0, lines := 1, gap := 0, inMark := false, joined := false
    clutterSeen := false }

/-- A run by its bounds. -/
def spanRun (lo hi : Nat) : Run := { lo := lo, hi := hi, area := 1, peak := 0, sum := 0, inMark := false }

/-- R92's table. -/
theorem test_isCandidate_examples :
    isCandidate 2 (spanRun 102 105) (spanTrack 0 0 100 103) = true ∧
      isCandidate 2 (spanRun 510 512) (spanTrack 0 0 500 501) = false ∧
        isCandidate 2 (spanRun 503 506) (spanTrack 0 0 500 501) = true ∧
          isCandidate 1 (spanRun 503 506) (spanTrack 0 0 500 501) = false ∧
            isCandidate 0 (spanRun 498 512) (spanTrack 0 0 507 513) = true := by decide

/-- Parameters within their ranges. -/
def params : ChanParams :=
  { mLo := 0, mHi := 0, satLevel := 250, obf := 128, dfloor := 512, k := 4, a := 4, l := 200, wu := 2, br := 1, rw := 1
    ls := 2, g := 3, maxSkip := 5, bf := 200, deepM := 2560, bandMax := 20, edgeC := 8, profile := 0, learn := false
    bandOff := false, stallTens := 20, abandonS := 10, holdTens := 50, pitch := 12000, pMin := 6000, pMax := 20000
    pTol := 1500, colP := 100, spot := 2000 }

/-- A closure of the track table by its extent. -/
def closure (length lo hi : Nat) : Closure :=
  { band := false, trackId := some 0, cause := .gap, long := false, firstCount := 0, firstPos := 0, lastPos := length
    lo := lo, hi := hi, peak := 512, area := 10, sum := some 5120, lines := 3, inMark := false, joined := false
    clutterSeen := false }

/-- R115's table: SPOT = 2,000, the widths 1,200, 2,000, 2,500, 2,100 and 29,000 µm as columns of 100 µm. -/
theorem test_orientation_examples :
    [orientationOf params (closure 2400 100 111), orientationOf params (closure 1000 100 119),
        orientationOf params (closure 1500 100 124), orientationOf params (closure 0 100 120),
        orientationOf params (closure 60000 100 389), orientationOf params (closure 1999 100 118)] =
      [.longitudinal, .transverse, .oblique, .transverse, .longitudinal, .spot] := by decide

/-- R114: with W = 1024, margins of 16 and EDGEC = 8, a span 24 to 999 is not EDGE, 20 to 30 is. -/
theorem test_isEdge_examples :
    isEdge 1024 { params with mLo := 16, mHi := 16 } (closure 0 24 999) = false ∧
      isEdge 1024 { params with mLo := 16, mHi := 16 } (closure 0 20 30) = true ∧
        isEdge 1024 { params with mLo := 16, mHi := 16 } (closure 0 30 1000) = true := by decide

/-- R177: with W = 64, margins 20 and 40 become 20 and 12, and 200 and 255 become 32 and 0. -/
theorem test_clamp_examples :
    (clampLo 64 20 40, clampHi 64 20 40) = (20, 12) ∧ (clampLo 64 200 255, clampHi 64 200 255) = (32, 0) := by decide

/-- R195: channel 5, class 20, severity 2, SCHEDULED and TRUNCATED give bytes 21, 148 and 1. -/
theorem test_defectBytes_example :
    (recordBytes (.defect
      { chan := 5, classCode := 20, severity := 2, flags := defectFlags { closure 0 0 0 with cause := .tail } false
        mark := .scheduled, billet := 7, serial := 1, firstPos := 0, length := 0, lo := 0, hi := 0, peak := 256, area := 1
        lines := 1, closeTime := 0 })).take 6 = [1, 21, 148, 1, 7, 0] := by decide

/-- R198: S = 4, slots 0 and 3 READY, slot 1 FILLING with 3 places: byte 0 is 134, byte 16 is 1, bytes 18 and 19 are 3, 0. -/
theorem test_partBlock_example :
    let s := modRing (fun r => { r with
      slots := [⟨.ready, 4⟩, ⟨.filling, 3⟩, ⟨.free, 0⟩, ⟨.ready, 4⟩], fill := .filling 1 }) State.reset
    ((partBlock s)[0]?, (partBlock s)[16]?, (partBlock s)[18]?, (partBlock s)[19]?, (partBlock s).length) =
      (some 134, some 1, some 3, some 0, 64) := by decide

/-- The parameters of chapter 3's worked cases, with K. -/
def caseParams (k : Nat) : ChanParams :=
  { params with satLevel := 250, obf := 128, k := k, dfloor := 2048, a := 4, l := 64, br := 1, rw := 2, bf := 154, deepM := 4096 }

/-- The pixels of a line by column. -/
def pixels (l : List Nat) (c : Nat) : Nat := (l[c]?).getD 0

/-- The background of the first worked case: every column 38400, no dark count. -/
def flatBackground : Store (Nat × Nat) := (List.range 8).map fun c => (c, (38400, 0))

/-- The result of the first worked case. -/
def ordinaryCase : LineResult :=
  analyseOrdinary 8 (caseParams 12) (pixels [152, 149, 150, 120, 118, 151, 255, 148]) flatBackground

/-- Chapter 3, "one ordinary line": the threshold, the dark columns, the run and the background left. -/
theorem test_ordinaryLine_case :
    ordinaryCase.verdict = .analysed ∧ ordinaryCase.threshold = 7458 ∧ ordinaryCase.dark = 2 ∧
      ordinaryCase.fed = [{ lo := 3, hi := 4, area := 2, peak := 8192, sum := 15872, inMark := false }] ∧
        ordinaryCase.flags = LineFlags.none ∧ ordinaryCase.band = none ∧
          ordinaryCase.background =
            [(0, 38432, 0), (1, 38384, 0), (2, 38400, 0), (3, 38400, 1), (4, 38400, 1), (5, 38416, 0), (6, 38400, 0),
              (7, 38368, 0)] := by decide +kernel

/-- The result of the second worked case, on the background the first left. -/
def bandCase : LineResult :=
  analyseOrdinary 8 (caseParams 4) (pixels [120, 121, 119, 122, 100, 150, 149, 150]) ordinaryCase.background

/-- Chapter 3, "a band line with a deep run". -/
theorem test_bandLine_case :
    bandCase.threshold = 5416 ∧ bandCase.dark = 5 ∧ bandCase.flags.band = true ∧ bandCase.flags.deep = true ∧
      bandCase.fed = [{ lo := 0, hi := 4, area := 5, peak := 12800, sum := 43024, inMark := true }] ∧
        bandCase.band = some { lo := 0, hi := 4, peak := 12800, dark := 5 } ∧
          bandCase.background =
            [(0, 38432, 1), (1, 38384, 1), (2, 38400, 1), (3, 38400, 2), (4, 38400, 2), (5, 38415, 0), (6, 38384, 0),
              (7, 38370, 0)] := by decide +kernel

/-- Chapter 5, line 804: the run 498 to 512 extends the older track 1, and track 2 is marked JOINED and ages. -/
theorem test_matchTrack_line804 :
    let old := [spanTrack 1 801 500 501, spanTrack 2 802 507 513]
    let l : LineRuns := { seq := 804, count := 0, pos := 41800, runs := [spanRun 498 512], clutter := false, ls := 2, g := 2 }
    (old.map (matchTrack l old)).map (fun t => (t.id, t.spanLo, t.spanHi, t.lines, t.gap, t.joined)) =
      [(1, 498, 512, 2, 0, false), (2, 507, 513, 1, 1, true)] := by decide

/-- R13: after sequence 702 with two lines unplaced, sequence 705 has no gap and 708 a gap of 3. -/
theorem test_lineGap_examples :
    ([(0xC1, 2), (0xC4, 2)] : List (Byte × Byte)).map (fun b =>
        lineGap { Capture.empty with lastSeq := some 702, unplaced := 2 }
          { Entry.empty with buffer := [(0, b.1), (1, b.2)] }) = [0, 3] := by decide

/-! ## The states of the tests -/

/-- A geometry that passes the checks of R175: W = 64, windows at 1 MiB and up, ring of 2 slots of 4 records, MF line 0
MARKER of strand 0 and MF line 1 HOLD of strand 0. -/
def geometry : Geometry :=
  { w := 64, lineBase := Bank16.ofFn fun c => 0x100000 + 0x1000 * c.val, lineN := Bank16.all 4, replayBase := 0x200000
    replayN := 4, b := 4, s := 2, ringBase := 0x300000, mf := [16, 32, 0, 0, 0, 0, 0, 0] }

theorem test_geometry_passes_checks : failedCheck 0 geometry = none := by decide

/-- After power-on, its start-up writes all issued and answered. -/
def bare : State := { State.reset with path := Path.initial }

/-- With geometry held. -/
def held : State :=
  { bare with
    setup := { bare.setup with geometry := some geometry }
    ring := { Ring.initial with slots := freshSlots 2, fill := .filling 0 } }

/-- A parameter set. -/
def set : ParamSet :=
  { ParamSet.zero with
    chan := params, strand := { scale := 65536, offset := 40000, merge := 100, pulseMs := 20, lifeS := 30 } }

/-- A channel in a state, with parameters in use. -/
def channel (st : ChanState) : Channel :=
  { Channel.initial with params := set, band := Band.empty 12000, record := { ChanRecord.initial with state := st } }

/-- `held` with channel 0 in a state. -/
def with0 (st : ChanState) : State := setChan 0 (channel st) held

/-- A complete HOT line of channel 0 with sequence 1 and encoder count 100, its trailer to come. -/
def entry : Entry :=
  { Entry.empty with
    state := .assembling, buffer := [(0, 1), (6, 64), (8, 100), (12, 1)], beatMap := List.range 12 }

/-- Capture assembling that line in slot 0. -/
def assembling : Capture := { Capture.empty with e0 := entry, asm := .assembling 0 }

/-- The line queued to be analysed. -/
def queued : Capture :=
  { Capture.empty with
    e0 := { entry with state := .queued, cls := some .toAnalyse }, lastSeq := some 1, queue := [0] }

/-- Channel 0's capture state replaced. -/
def capturing (k : Capture) (s : State) : State := modCapture 0 (fun _ => k) s

/-- An outstanding system-side read with what it shows. -/
def sysRead (addr beats : Nat) (shown : List (Nat × BitVec 16)) : SysOut :=
  { id := 9, addr := addr, beats := beats, isRead := true, watch := .all, shown := shown }

/-- The outgoing write queue holding `n` RECORD writes. -/
def records (n : Nat) : List OutEntry :=
  (List.range n).map fun i => { kind := .record, addr := 0x300000 + 32 * i, data := zeros 32 }

/-- A GAP record. -/
def gapRecord : Record := .gap 1 0 0

/-- The system-side list holding `n` reads, not held. -/
def reads (n : Nat) : List SysTxn :=
  (List.range n).map fun i => { id := i, addr := 0x400000 + 8 * i, body := .read 1, held := false, watch := .all }

/-- `held` with the memory path changed. -/
def pathed (f : Path → Path) : State := modPath f held

/-- `held` with the ring writer changed. -/
def ringed (f : Ring → Ring) : State := modRing f held

/-- A part write outstanding. -/
def partWrite (kind : WriteKind) (addr : Nat) (data : List Byte) (live : Bool) : PartOut :=
  { id := 9, kind := kind, addr := addr, data := data, live := live }

/-- The next state of an outcome. -/
def nextOf : Host.Outcome State Fault Refusal → Option State
  | .next t => some t
  | .fault _ => none
  | .refused _ => none

/-- A record queue of `n` records. -/
def queuedRecords (n : Nat) (s : State) : State := modRing (fun r => { r with queue := List.replicate n gapRecord }) s

/-- A set waiting on channel 0, and an APPLY in progress. -/
def applying (s : State) : State :=
  setCommand (.inProgress (newRunning 7 1)) (modChan 0 (fun ch => { ch with waiting := some set }) s)

/-! ## States that meet the hypotheses of the statements: the step and the invariants -/

theorem witness_StepRunsFrontCommand :
    ({ held with pending := [.flush 1 0] } : State).pending = [.flush 1 0] ∧ held.pending = [] ∧
      { held with usInMs := 998 }.usInMs < 999 ∧ 999 ≤ { held with usInMs := 999 }.usInMs := by decide

theorem witness_CommandsKeepQueueClockAndPins :
    (∃ t, exec (.start 1 1) held = .next t) ∧ held.setup.geometry = some geometry ∧
      (∃ t, exec (.memorySideGrant 3) held = .next t) := ⟨⟨_, rfl⟩, rfl, ⟨_, rfl⟩⟩

/-- The outgoing write queue full, one content deferred, and a word to be offered. -/
def fullQueue : State :=
  pathed fun p => { p with
    queue := (records 24) ++ (List.range 8).map fun i => { kind := .word, addr := 0x2040 + 8 * i, data := zeros 8 }
    deferred := [(0x2080, zeros 8)] }

theorem witness_StepsKeepTheOutgoingQueueSound :
    OutgoingSound fullQueue.path ∧ ∃ t, step { fullQueue with pending := [.memorySideGrant 0] } = .next t :=
  ⟨by decide, ⟨_, rfl⟩⟩

/-- The record queue full, a loss episode open. -/
def fullRecords : State :=
  ringed fun r => { r with queue := List.replicate 64 gapRecord, loss := some { count := 1, first := 5, last := 5 } }

theorem witness_StepsKeepTheRecordQueueSound :
    RecordsSound fullRecords.ring ∧ ∃ t, step { fullRecords with pending := [.recordPlacement] } = .next t :=
  ⟨And.intro (by decide) (And.intro (by decide) (by decide)), ⟨_, rfl⟩⟩

/-- Strand 0 with two marks queued, 101 counts apart, and a merge window of 100. -/
def marked : State :=
  modStrand 0 (fun k => { k with
    queue := [{ trigger := 500, chan := 0, expiry := 1000 }, { trigger := 601, chan := 1, expiry := 1000 }]
    lastCount := some 100, merge := 100, lifeS := 30, pulseMs := 20 }) held

theorem witness_StepsKeepTheMarkQueuesSound :
    (∀ k : Strand, MarksSound (marked.strands.get k)) ∧
      ∃ t, step { marked with pending := [.markExpiry 0 500] } = .next t := ⟨by decide, ⟨_, rfl⟩⟩

/-- Channel 0 INSPECTING with tracks of IDs 0 and 31 open. -/
def tracked : State := modChan 0 (fun ch => { ch with tracks := [spanTrack 0 1 3 4, spanTrack 31 1 9 9] }) (with0 .inspecting)

theorem witness_StepsKeepTheTrackTablesSound :
    (∀ c : Chan, TracksSound (tracked.chan c).tracks) ∧
      ∃ t, step { tracked with pending := [.stop 1 1] } = .next t := ⟨by decide, ⟨_, rfl⟩⟩

theorem witness_StepsKeepTheEffectivePitch :
    (∀ c : Chan, PitchSound (tracked.chan c)) ∧ ∃ t, step { tracked with pending := [.stop 1 1] } = .next t := by
  refine ⟨fun c => ?_, ⟨_, rfl⟩⟩
  fin_cases c <;> exact ⟨by decide, by decide, by decide, by decide, trivial⟩

/-- Channel 3's STALL latched and enabled, its flag in the summary. -/
def attentive : Status :=
  { Status.initial with
    words := Bank16.set (Bank16.all CondWord.empty) 3 { CondWord.empty with latched := 256 }, maskChan := 256
    summary := 8 }

theorem witness_StepsKeepTheAttentionSummary :
    AttentionSound attentive ∧ ∃ t, step { held with status := attentive, pending := [.resetPart 1 0] } = .next t :=
  ⟨by decide, ⟨_, rfl⟩⟩

theorem witness_StepsKeepTheStoresCanonical :
    StoresCanonical (capturing assembling (with0 .waiting)) ∧
      ∃ t, step { capturing assembling (with0 .waiting) with pending := [.restart 1 1] } = .next t :=
  ⟨by decide, ⟨_, rfl⟩⟩

theorem witness_StepsKeepThePartQuietUnderReset :
    (assertReset tracked).resetLine = true ∧ Quiet (assertReset tracked) ∧
      ∃ t, step { assertReset tracked with pending := [.systemRead 0 1] } = .next t := ⟨by decide, by decide, ⟨_, rfl⟩⟩

/-! ## The resets and the system side -/

theorem witness_ResetLineAssertCompletes :
    tracked.resetLine = false ∧ (assertReset tracked).resetLine = true := by decide

theorem witness_ResetLineReleaseCompletes :
    (assertReset tracked).resetLine = true ∧ (assertReset tracked).path.queue = [] ∧
      (assertReset tracked).path.deferred = [] := by decide

/-- A write of 16 beats to no region, with seven transactions not held. -/
theorem witness_UnwatchedWriteIsForwarded :
    let s := pathed fun p => { p with list := reads 7 }
    (0x400000 : BitVec 40).toNat % 8 = 0 ∧ (List.replicate 16 beat).length ≤ 16 ∧ s.path.port = [] ∧
      notHeldCount s.path < 8 ∧ s.resetLine = false ∧ s.setup.command = .ready ∧
        (∀ i, i < 16 → regionOf s (0x400000 + 8 * i) = .elsewhere) ∧
          (assertReset s).resetLine = true ∧ notHeldCount (assertReset s).path < 8 := by decide

/-- A header beat 0 that names channel 0. -/
def header0 : Beat := { data := 0, enables := 255 }

/-- Channel 0 WAITING in mode REPLAY, its capture state as given. -/
def replaying (k : Capture) : State :=
  capturing k (modRecord 0 (fun r => { r with mode := .replay }) (with0 .waiting))

/-- Both entries in the queue, the channel skipping slot 2. -/
def skipping : Capture :=
  { Capture.empty with
    e0 := { entry with state := .engaged, cls := some .toAnalyse }
    e1 := { entry with state := .queued, cls := some .toAnalyse }
    queue := [0, 1], asm := .skipping 2 }

/-- Writes of two beats that no line takes: two beats of padding; the last pixel beat of the slot being skipped, behind a beat
of it without enables; channel 0's window while it replays; a pixel beat and the trailer of a replay slot of nobody. -/
theorem witness_UnwatchedWriteIsForwarded_beats_of_no_line :
    let s := replaying Capture.empty
    let u := capturing skipping (with0 .waiting)
    (Accepting s ∧ s.setup.command = .ready ∧ s.setup.geometry = some geometry ∧ Accepting u) ∧
      (noLine u 64 0x100068 beat = true ∧ noLine u 64 0x100070 beat = true) ∧
        (noLine u 64 0x100150 { beat with enables := 0 } = true ∧ noLine u 64 0x100158 beat = true) ∧
          (noLine s 64 0x100000 beat = true ∧ noLine s 64 0x100008 beat = true) ∧
            noLine s 64 0x200058 beat = true ∧ noLine s 64 0x200060 beat = true := by decide

/-- Stray beats: the first pixel beat; the last pixel beat and the trailer of one write, of a slot not in progress. -/
theorem witness_UnwatchedWriteIsForwarded_strays :
    let s := with0 .waiting
    livesOn s 0 = true ∧ strayBeat s 0 64 0x100008 beat = true ∧ strayBeat s 0 64 0x100058 beat = true ∧
      strayBeat s 0 64 0x100060 beat = true ∧ strayBeat s 0 64 0x100000 beat = false := by decide

/-- Headers for no channel: strand 4, face 4 and a channel that is OFF. -/
theorem witness_UnwatchedWriteIsForwarded_unrouted :
    let s := with0 .waiting
    regionOf s 0x200000 = .replay 0 0 ∧ beat.enables ≠ 0 ∧
      3 < writtenByte { data := 0x0000000400000000, enables := 255 } 4 ∧
        3 < writtenByte { data := 0x0000040000000000, enables := 255 } 5 ∧
          (∀ d : Chan, d.val = 4 * writtenByte header0 4 + writtenByte header0 5 → replays s d = false) ∧
            ∀ d : Chan, replays s d = true → (s.chan d).capture.asm ≠ .assembling 0 := by decide

/-- Such a header in the slot that channel 0 assembles. -/
theorem witness_UnwatchedWriteIsForwarded_unrouted_assembling :
    let s := replaying assembling
    replays s 0 = true ∧ AloneAt s 0 0 ∧ (s.chan 0).capture.asm = .assembling 0 ∧
      assemblingEntry (s.chan 0).capture = some 0 ∧ wfStore 0 (entryOf (s.chan 0).capture 0).buffer = true := by decide

/-- R23: the header beat 0 of a replay line rewritten to name strand 4: the line is MALFORMED as its channel completes it. -/
theorem test_rewritten_replay_header_is_malformed :
    (nextOf (exec (.systemWrite 0 0x200000 [{ data := 0x0000000400000001, enables := 255 }]) (replaying assembling))).map
        (fun t => classOf t 0 (entryOf (t.chan 0).capture 0)) = some .malformed ∧
      classOf (replaying assembling) 0 (entryOf ((replaying assembling).chan 0).capture 0) = .toAnalyse := by decide +kernel

/-- The eleven header and pixel beats behind header beat 0 in one write. -/
theorem witness_UnwatchedWriteIsForwarded_extended_by_several :
    (∀ i : Fin 11, BeatReaches (capturing assembling (with0 .waiting)) 0 0 (8 + 8 * i.val) (0x100008 + 8 * i.val)) ∧
      8 + 8 * 11 ≤ 32 + geometry.w := by decide

/-- A line's last pixel beat and its trailer as one write, and as two. -/
theorem witness_UnwatchedWriteIsForwarded_in_order :
    let s := capturing assembling (with0 .waiting)
    (Accepting s ∧ s.setup.command = .ready ∧ setupBase s.setup.strap + setupSize ≤ 0x100058) ∧
      ((nextOf (exec (.systemWrite 0 0x100058 [beat]) s)).bind fun t =>
        nextOf (exec (.systemWrite 0 0x100060 [beat]) { t with path := s.path })).isSome = true := by decide +kernel

/-- Lines begun in entry 0, live and replayed. -/
theorem witness_UnwatchedWriteIsForwarded_begun :
    let s := with0 .waiting
    HeaderReaches s 0 0 0x100000 header0 ∧ HeaderReaches (replaying Capture.empty) 0 3 0x200180 header0 ∧
      (entryOf (s.chan 0).capture 0).state = .free := by decide

/-- A line begun in entry 1 by a header beat that ends a skip. -/
theorem witness_UnwatchedWriteIsForwarded_begun_behind :
    let one := capturing { skipping with e1 := Entry.empty, queue := [0] } (with0 .waiting)
    HeaderReaches one 0 0 0x100000 header0 ∧ (entryOf (one.chan 0).capture 1).state = .free ∧
      (one.chan 0).capture.e0.state ≠ .free ∧ (one.chan 0).capture.asm = .skipping 2 := by decide

/-- The line in progress extended by its header beat and by the last pixel beat. -/
theorem witness_UnwatchedWriteIsForwarded_extended :
    let a := capturing assembling (with0 .waiting)
    HeaderReaches a 0 0 0x100000 header0 ∧ (a.chan 0).capture.asm = .assembling 0 ∧
      assemblingEntry (a.chan 0).capture = some 0 ∧ wfStore 0 (entryOf (a.chan 0).capture 0).buffer = true ∧
        BeatReaches a 0 0 (8 * 11) 0x100058 ∧ 8 * 11 < 32 + geometry.w := by decide

/-- The first beat behind the header's of a line replayed. -/
theorem witness_UnwatchedWriteIsForwarded_extended_replay :
    BeatReaches (replaying assembling) 0 0 (8 * 1) 0x200008 ∧
      ((replaying assembling).chan 0).capture.asm = .assembling 0 := by decide

theorem witness_SystemReadEntersTheList :
    let s := pathed fun p => { p with list := reads 7 }
    (0xFFFFFFFFF8 : BitVec 40).toNat % 8 = 0 ∧ s.path.port = [] ∧ notHeldCount s.path < 8 := by decide

theorem witness_TransactionsWaitWhileTheListIsFull :
    8 ≤ notHeldCount (pathed fun p => { p with list := reads 8 }).path ∧
      (pathed fun p => { p with port := [{ id := 0, addr := 0, body := .read 1 }] }).path.port ≠ [] := by decide

theorem witness_IllFormedTransactionsAreRefused :
    (1 : BitVec 40).toNat % 8 ≠ 0 ∧ ([] : List Beat).length = 0 ∧ 16 < (List.replicate 17 beat).length ∧
      (1 : BitVec 14).toNat % 8 ≠ 0 := by decide

/-- Whether the hypotheses of the trailer statements hold at the trailer beat at `a` of channel 0's slot 0, for a line of
class `k`. -/
def trailerDue (a : Nat) (mf : BitVec 8) (k : LineClass) (s : State) : Bool :=
  decide (Accepting s ∧ s.setup.command = .ready ∧ s.setup.geometry = some geometry ∧ a % 8 = 0) &&
    decide (BeatReaches s 0 0 (32 + geometry.w) a) && decide ((s.chan 0).capture.asm = .assembling 0) &&
      decide (assemblingEntry (s.chan 0).capture = some 0) &&
        match k with
        | .malformed => decide (ClassGiven mf s 0 (entryOf (s.chan 0).capture 0) .malformed)
        | .noBillet => decide (ClassGiven mf s 0 (entryOf (s.chan 0).capture 0) .noBillet)
        | .lamp => decide (ClassGiven mf s 0 (entryOf (s.chan 0).capture 0) .lamp)
        | .held => decide (ClassGiven mf s 0 (entryOf (s.chan 0).capture 0) .held)
        | .reverse => decide (ClassGiven mf s 0 (entryOf (s.chan 0).capture 0) .reverse)
        | .toAnalyse => decide (ClassGiven mf s 0 (entryOf (s.chan 0).capture 0) .toAnalyse)

theorem trailerDue_hypotheses {a : Nat} {mf : BitVec 8} {k : LineClass} {s : State} (h : trailerDue a mf k s = true) :
    ((((Accepting s ∧ s.setup.command = .ready ∧ s.setup.geometry = some geometry ∧ a % 8 = 0) ∧
            BeatReaches s 0 0 (32 + geometry.w) a) ∧ (s.chan 0).capture.asm = .assembling 0) ∧
        assemblingEntry (s.chan 0).capture = some 0) ∧
      ClassGiven mf s 0 (entryOf (s.chan 0).capture 0) k := by
  simp only [trailerDue, Bool.and_eq_true, decide_eq_true_eq] at h
  cases k <;> exact ⟨h.1, of_decide_eq_true h.2⟩

/-- The trailer of slot 0 of channel 0's window and of the replay window, the channel WAITING with a complete HOT line and
nothing queued; the channel STALLED, the line's count at the last analysed count, another line queued. -/
theorem witness_TrailerOfALineToBeAnalysedIsHeld :
    let stalled :=
      modRecord 0 (fun r => { r with lastAnalysed := 100 }) (capturing { assembling with queue := [1] } (with0 .stalled))
    trailerDue 0x100060 0 .toAnalyse (capturing assembling (with0 .waiting)) = true ∧
      trailerDue 0x200060 0 .toAnalyse (replaying assembling) = true ∧ trailerDue 0x100060 0 .toAnalyse stalled = true ∧
        ((capturing assembling (with0 .waiting)).chan 0).capture.queue = [] := by decide

/-- The entry with the header's flags byte replaced. -/
def flagged (v : Byte) (st : ChanState) : State :=
  capturing { assembling with e0 := { entry with buffer := [(0, 1), (6, 64), (8, 100), (12, v)] } } (with0 st)

/-- INSPECTING, the last analysed count ahead of the line's. -/
def reversing : State := modRecord 0 (fun r => { r with lastAnalysed := 101 }) (capturing assembling (with0 .inspecting))

/-- The line of a capture state, with its pixel beat 11 missing. -/
def missingBeat (k : Capture) : Capture := { k with e0 := { k.e0 with beatMap := List.range 11 } }

/-- R15's verdicts at once, the queue empty: MALFORMED for a missing pixel beat, MALFORMED for a sequence equal to the last,
NO_BILLET in WAITING, LAMP, HELD, REVERSE. -/
theorem witness_TrailerOfAnyOtherLineIsRewrittenAtOnce :
    trailerDue 0x100060 0 .malformed (capturing (missingBeat assembling) (with0 .waiting)) = true ∧
      trailerDue 0x100060 0 .malformed (capturing { assembling with lastSeq := some 1 } (with0 .waiting)) = true ∧
        trailerDue 0x100060 0 .noBillet (flagged 2 .waiting) = true ∧ trailerDue 0x100060 0 .lamp (flagged 3 .waiting) = true ∧
          trailerDue 0x100060 2 .held (flagged 1 .waiting) = true ∧ trailerDue 0x100060 0 .reverse reversing = true := by decide

/-- A line behind another; a tail, with a track open; a run that reaches MAXSKIP with a LAMP line, and one that exceeds it. -/
theorem witness_TrailerOfAnyOtherLineIsRewrittenAtOnce_at_the_head :
    let run := fun n => capturing { ((flagged 3 .inspecting).chan 0).capture with unseenRun := n } (with0 .inspecting)
    let tail := modChan 0 (fun ch => { ch with tracks := [spanTrack 0 1 3 4] }) (flagged 0 .inspecting)
    trailerDue 0x100060 0 .malformed (capturing { missingBeat assembling with queue := [1] } (with0 .waiting)) = true ∧
      trailerDue 0x100060 0 .noBillet tail = true ∧ billetOpen tail 0 = true ∧ (tail.chan 0).capture.queue = [] ∧
        EndsInTheQueue tail 0 ∧
          trailerDue 0x100060 0 .lamp (run 4) = true ∧ ((run 4).chan 0).params.chan.maxSkip = 4 + 1 ∧
            trailerDue 0x100060 0 .lamp (run 5) = true ∧ billetOpen (run 5) 0 = true := by decide

/-- A line skipped, and its trailer; the trailer of an unrouted replay slot. -/
theorem witness_TrailerOfAnyOtherLineIsRewrittenAtOnce_skipped :
    let u := capturing skipping (with0 .waiting)
    let r := { with0 .waiting with unrouted := some 0 }
    (BeatReaches u 0 2 (32 + geometry.w) 0x100160 ∧ (u.chan 0).capture.asm = .skipping 2) ∧
      (regionOf r 0x200060 = .replay 0 (32 + geometry.w) ∧ NobodyAt r 0 ∧ r.unrouted = some 0) ∧
        HeaderReaches u 0 1 0x100080 header0 ∧ (u.chan 0).capture.e0.state ≠ .free ∧
          (u.chan 0).capture.e1.state ≠ .free ∧ (u.chan 0).capture.queue.getLast? = some 1 := by decide

/-- A line abandoned with the other entry queued. -/
theorem witness_TrailerOfAnyOtherLineIsRewrittenAtOnce_abandoned :
    let q := capturing { assembling with e1 := { entry with state := .queued }, queue := [1] } (with0 .waiting)
    HeaderReaches q 0 1 0x100080 header0 ∧ (q.chan 0).capture.asm = .assembling 0 ∧
      assemblingEntry (q.chan 0).capture = some 0 ∧ (q.chan 0).capture.queue.getLast? = some 1 ∧
        Claimed (abandonedChan q 0 0).capture 0 := by decide

/-- A line abandoned with an empty queue, MAXSKIP just reached. -/
theorem witness_TrailerOfAnyOtherLineIsRewrittenAtOnce_abandoned_alone :
    let a := capturing { assembling with unseenRun := 4 } (with0 .inspecting)
    HeaderReaches a 0 1 0x100080 header0 ∧ (a.chan 0).capture.queue = [] ∧
      NotBlind a 0 (min ((a.chan 0).capture.unseenRun + 1) 65535) ∧ billetOpen a 0 = true ∧
        Claimed (abandonedChan a 0 0).capture 0 := by decide

/-- Channel 1 replaying too, its capture state as given. -/
def replayedBy1 (k : Capture) : State :=
  setChan 1 { ((replaying k).chan 0) with capture := k } (replaying Capture.empty)

/-- R22: a header beat for channel 0 in the replay slot that channel 1 assembles, and in the one that it skips. -/
theorem witness_TrailerOfAnyOtherLineIsRewrittenAtOnce_taken_over :
    let a := replayedBy1 assembling
    let k := replayedBy1 skipping
    RoutedTo a 0 0 0x200000 header0 ∧ replays a 1 = true ∧ (a.chan 1).capture.asm = .assembling 0 ∧
      assemblingEntry (a.chan 1).capture = some 0 ∧ NotBlind a 1 1 ∧ Claimed (a.chan 0).capture 0 ∧
        RoutedTo k 0 2 0x200100 header0 ∧ (k.chan 1).capture.asm = .skipping 2 ∧ Claimed (k.chan 0).capture 0 := by decide

/-- A LAMP line at the head of an INSPECTING channel for whose switch an APPLY waits. -/
theorem witness_TrailerOfAnyOtherLineIsRewrittenAtOnce_apply :
    let s := applying (flagged 3 .inspecting)
    Accepting s ∧ s.setup.command = .inProgress (newRunning 7 1) ∧ (newRunning 7 1).code = 1 ∧
      BeatReaches s 0 0 (32 + geometry.w) 0x100060 ∧ (s.chan 0).capture.asm = .assembling 0 ∧
        ClassGiven 0 s 0 (entryOf (s.chan 0).capture 0) .lamp ∧ (s.chan 0).capture.queue = [] ∧
          (s.chan 0).waiting = some set ∧ ∀ d : Chan, d ≠ 0 → (s.chan d).waiting = none := by decide +kernel

/-- A write of one beat below the command word, one at the block's end, and one on the command word without byte 7. -/
theorem witness_StagedWriteMergesTheHostWrittenBytes :
    Accepting held ∧ wfStore 0 held.setup.staged = true ∧ held.setup.command = .ready ∧
      (0x138 : BitVec 14).toNat + 8 * [beat].length ≤ 16384 ∧ (0x3FF8 : BitVec 14).toNat + 8 * [beat].length ≤ 16384 ∧
        (0x140 : BitVec 14).toNat % 8 = 0 ∧ ({ beat with enables := 127 } : Beat).enables.getLsbD 7 = false := by decide

/-! ## The memory side -/

/-- Both sides ask: at 23 queued the system side wins, at 24 with the part given it last. -/
theorem witness_GrantIssuesTheSystemSide :
    let p := fun (n : Nat) (l : Side) => (pathed fun p => { p with list := reads 1, queue := records n, lastSide := l }).path
    (eligibleTxn (p 23 .system)).isSome = true ∧ (p 23 .system).port = [] ∧ (p 23 .system).queue.length < 24 ∧
      (eligibleTxn (p 24 .part)).isSome = true ∧ (p 24 .part).lastSide = .part := by decide

/-- Eight reads listed, two transactions at the port. -/
def crowded : State :=
  pathed fun p => { p with
    list := reads 8
    port := [{ id := 20, addr := 0x500000, body := .read 1 }, { id := 21, addr := 0x500008, body := .write [beat] }] }

/-- The grant accepts the first of them, and the list is full again. -/
theorem witness_GrantIssuesTheSystemSide_port :
    (eligibleTxn crowded.path).isSome = true ∧ notHeldCount crowded.path = 8 ∧ crowded.path.queue.length < 24 ∧
      ((nextOf (exec (.memorySideGrant 0) { crowded with path := { crowded.path with port := [] } })).bind fun u =>
          (nextOf (exec (.systemRead 0x500000 1) { u with path := { u.path with nextId := 20 } })).map fun v =>
            notHeldCount v.path) = some 8 := by decide +kernel

/-- The part alone, and at 24 queued with the system side given it last. -/
theorem witness_GrantIssuesThePartsHeadWrite :
    let p := fun (n : Nat) => (pathed fun p => { p with list := reads n, queue := records 24 }).path
    (p 0).queue = records 1 ++ (records 24).drop 1 ∧ eligibleTxn (p 0) = none ∧ (eligibleTxn (p 1)).isSome = true ∧
      24 ≤ (p 1).queue.length ∧ (p 1).lastSide = .system ∧ held.ring.fillers = 0 ∧ fullQueue.path.deferred ≠ [] ∧
        eligibleTxn fullQueue.path = none := by decide

/-- Two FILLER records awaiting admission, the queue at its depth; and while RESET_PART awaits the ring writer. -/
theorem witness_GrantIssuesThePartsHeadWrite_fillers :
    let s := modRing (fun r => { r with fillers := 2 }) (pathed fun p => { p with queue := records 24 })
    s.path.queue = records 1 ++ (records 24).drop 1 ∧ eligibleTxn s.path = none ∧ s.path.deferred = [] ∧
      s.ring.fill = .filling 0 ∧ s.ring.resetWait = false ∧ s.setup.geometry = some geometry ∧
        1 = min s.ring.fillers (24 - ((records 24).drop 1).length) ∧
          (modRing (fun r => { r with resetWait := true }) s).ring.resetWait = true := by decide

/-- `held` with a read outstanding. -/
def reading (o : SysOut) (s : State) : State := modPath (fun p => { p with sysOut := [o] }) s

theorem witness_ReadDataReturnPassesTheAnswerBack :
    (reading (sysRead 0x400000 1 []) held).path.sysOut.find? (fun o => decide (o.id = 9)) = some (sysRead 0x400000 1 []) ∧
      coveredSlot held 0x400000 1 = none ∧ held.path.sysOut.find? (fun o => decide (o.id = 9)) = none := by decide

/-- Slot 1 of the test's ring READY; with `blocked`, the ring blocked on it. -/
def readySlot1 (blocked : Bool) : State :=
  ringed fun r => { r with
    slots := [if blocked then ⟨.ready, 4⟩ else ⟨.filling, 1⟩, ⟨.ready, 4⟩]
    fill := if blocked then .blocked 1 else .filling 0 }

/-- Slot 1's first beat as the first of one beat and as the last of 16. -/
theorem witness_BatchTakeFreesTheReadySlot :
    let o := sysRead 0x300080 1 []
    let u := sysRead 0x300008 16 []
    held.setup.geometry = some geometry ∧ 4 ≤ geometry.b ∧
      (reading o held).path.sysOut.find? (fun o => decide (o.id = 9)) = some o ∧
      (reading u held).path.sysOut.find? (fun o => decide (o.id = 9)) = some u ∧
      o.addr ≤ geometry.ringBase + 1 * geometry.b * 32 ∧
      geometry.ringBase + 1 * geometry.b * 32 + 8 ≤ o.addr + 8 * o.beats ∧
      u.addr ≤ geometry.ringBase + 1 * geometry.b * 32 ∧
      geometry.ringBase + 1 * geometry.b * 32 + 8 ≤ u.addr + 8 * u.beats ∧ held.ring.resetWait = false ∧
      slotStateOf held.ring 1 ≠ .ready ∧ slotStateOf (readySlot1 false).ring 1 = .ready ∧
      (readySlot1 false).ring.fill ≠ .blocked 1 ∧ slotStateOf (readySlot1 true).ring 1 = .ready ∧
      (readySlot1 true).ring.fill = .blocked 1 := by decide

/-- STALL and LINE_LOSS latched and shown for a channel that is STALLED. -/
def shownState : State :=
  modStatus (fun st => { st with words := st.words.set 0 { latched := 257, published := 257, publishedBy := 0 } })
    (reading (sysRead 0x2040 1 [(0, 257)]) (with0 .stalled))

theorem witness_ConditionWordReadClearsWhatItShowed :
    shownState.path.sysOut.find? (fun o => decide (o.id = 9)) = some (sysRead 0x2040 1 [(0, 257)]) ∧
      coveredSlot shownState 0x2040 1 = none ∧ ownerIndex (.chan 0) = 0 ∧ ownerIndex .part = 16 ∧
        coveredSlot held 0x20C0 1 = none := by decide

/-- `held` with a part write outstanding. -/
def answering (o : PartOut) (s : State) : State := modPath (fun p => { p with partOut := [o] }) s

theorem witness_PartWriteResponseCompletesTheWrite :
    let o := partWrite .word 0x20C0 (1 :: zeros 7) true
    (answering o held).path.partOut.find? (fun o => decide (o.id = 9)) = some o ∧ o.live = true ∧
      o.addr = setupBase held.setup.strap + conditionAt (ownerIndex .part) ∧
        (partWrite .record 0x300000 (zeros 32) false).live = false ∧
          (partWrite .status 0x2400 (zeros 64) true).kind = .status := by decide

/-- The ring index word is no condition word. -/
theorem witness_PartWriteResponseCompletesTheWrite_other_word :
    ∀ w : Owner, (partWrite .word 0x2010 (zeros 8) true).addr ≠ setupBase held.setup.strap + conditionAt (ownerIndex w) := by
  intro w
  cases w with
  | chan c => fin_cases c <;> decide
  | part => decide

/-- A RECORD write answered with another outstanding; the only one, its slot not full; and with RESET_PART awaiting it. -/
theorem witness_PartWriteResponseCompletesTheWrite_record :
    let o := partWrite .record 0x300000 (zeros 32) true
    let s := answering o (modRing (fun r => { r with outstanding := 2 }) held)
    s.path.partOut.find? (fun o => decide (o.id = 9)) = some o ∧ o.kind = .record ∧ 2 ≤ s.ring.outstanding ∧
      held.ring.fill = .filling 0 ∧ placesOf held.ring 0 ≠ heldB held ∧
        (modRing (fun r => { r with resetWait := true, outstanding := 1 }) s).ring.resetWait = true := by decide

/-- Slot 1 full with its last write outstanding, slot 0 FREE or READY. -/
def lastWrite (st : SlotState) : State :=
  answering (partWrite .record 0x3000E0 (zeros 32) true)
    (ringed fun r => { r with slots := [⟨st, 0⟩, ⟨.filling, 4⟩], fill := .filling 1, outstanding := 1, index := 1 })

theorem witness_TheLastRecordResponseMakesTheSlotReady :
    (lastWrite .free).path.partOut.find? (fun o => decide (o.id = 9)) =
        some (partWrite .record 0x3000E0 (zeros 32) true) ∧
      (lastWrite .free).setup.geometry = some geometry ∧ (lastWrite .free).ring.fill = .filling 1 ∧
        2 ≤ (lastWrite .free).ring.slots.length ∧ placesOf (lastWrite .free).ring 1 = geometry.b ∧
          (lastWrite .free).ring.fillers = 0 ∧ (lastWrite .free).ring.outstanding = 1 ∧
            (lastWrite .free).ring.resetWait = false ∧ slotStateOf (lastWrite .free).ring ((1 + 1) % 2) = .free ∧
              slotStateOf (lastWrite .ready).ring ((1 + 1) % 2) = .ready := by decide

/-! ## The engine and the timers -/

/-- Channel 0 requests the engine, last served `last`. -/
def requesting (last : Chan) : State := { capturing queued (with0 .inspecting) with engine := ⟨none, last⟩ }

/-- Channel 0 is the first in order after 15, and the last after itself. -/
theorem witness_EngineGrantServesTheNextRequest :
    (0 : Chan) = (requesting 15).engine.lastServed + 1 + 0 ∧ (0 : Chan) = (requesting 0).engine.lastServed + 1 + 15 ∧
      (requesting 0).engine.analysis = none ∧ requests (requesting 0) 0 = true ∧
        (∀ k : Fin 16, k < 15 → requests (requesting 0) ((requesting 0).engine.lastServed + 1 + k) = false) ∧
          ((requesting 0).chan 0).capture.queue.head? = some 0 ∧ (∀ c : Chan, requests held c = false) := by decide

/-- The grant that switches the one channel that an APPLY waits for, and one with a set waiting elsewhere. -/
theorem witness_EngineGrantServesTheNextRequest_apply :
    let s := applying (requesting 15)
    requests s 0 = true ∧ s.setup.command = .inProgress (newRunning 7 1) ∧ (s.chan 0).record.state = .inspecting ∧
      (∀ x : Chan, x ≠ 0 → (s.chan x).waiting = none) ∧
        ((modChan 1 (fun ch => { ch with waiting := some set }) s).chan 1).waiting ≠ none := by decide

/-- Channel 0's line of entry 0 in analysis. -/
def analysing (role : Role) : State :=
  { capturing { queued with e0 := { entry with state := .engaged, cls := some .toAnalyse, isHead := true } }
      (with0 .inspecting) with
    engine := ⟨some { chan := 0, role := role, params := set }, 0⟩ }

theorem witness_SeedLineCompletionSeedsTheBackground :
    (analysing .seed).engine.analysis = some { chan := 0, role := .seed, params := set } ∧
      ((analysing .seed).chan 0).capture.queue.head? = some 0 ∧ ((analysing .seed).chan 0).record.pendingCmd = none ∧
        ((analysing .seed).chan 0).record.abandonDue = false ∧ (analysing .seed).setup.command = .ready ∧
          ((analysing .seed).chan 0).capture.queue = [0] ∧
            min ((entryOf ((analysing .seed).chan 0).capture 0).gap + (entryOf ((analysing .seed).chan 0).capture 0).unseenAfter)
                65535 ≤ ((analysing .seed).chan 0).params.chan.maxSkip := by decide

/-- The line of `analysing`, 64 columns of 0, obscured where SAT is 0 and not where it is 250. -/
theorem witness_SeedLineCompletionSeedsTheBackground_other_lines :
    let s := analysing .warmup
    let pix := pixel (entryOf (s.chan 0).capture 0)
    s.engine.analysis = some { chan := 0, role := .warmup, params := set } ∧ (analysing .ordinary).setup.command = .ready ∧
      ObscuredLine (heldW s) { params with satLevel := 0 } pix ∧ ¬ObscuredLine (heldW s) params pix ∧
        (s.chan 0).capture.queue = [0] ∧ (entryOf (s.chan 0).capture 0).gap = 0 ∧
          NotBlind s 0 (min ((s.chan 0).capture.unseenRun + (0 + 1 + 0)) 65535) ∧
            (s.chan 0).band.episode.state = .absent := by decide +kernel

/-- The ordinary line of `analysing` is no band line; with DFLOOR 0 it is one of 64 dark columns. -/
theorem witness_SeedLineCompletionSeedsTheBackground_band :
    let pix := pixel (entryOf ((analysing .ordinary).chan 0).capture 0)
    (analyseOrdinary 64 params pix []).flags.band = false ∧
      (analyseOrdinary 64 { params with dfloor := 0 } pix []).flags.band = true ∧
        ¬ObscuredLine 64 { params with dfloor := 0 } pix := by decide +kernel

/-- A completion in whose channel STOP is pending and a track open, the billet's records fitting the queue it leaves; with
another channel's command pending too. -/
theorem witness_SeedLineCompletionSeedsTheBackground_pending :
    let s :=
      setCommand (.inProgress (newRunning 1 4))
        (modChan 0 (fun ch => { ch with
          tracks := [spanTrack 0 1 3 4], record := { ch.record with pendingCmd := some .stop } }) (analysing .ordinary))
    s.engine.analysis = some { chan := 0, role := .ordinary, params := set } ∧ (s.chan 0).capture.queue = [0] ∧
      (s.chan 0).record.pendingCmd = some .stop ∧ (s.chan 0).record.abandonDue = false ∧
        s.setup.command = .inProgress (newRunning 1 4) ∧ (newRunning 1 4).code.toNat = 4 ∧ watches s 0 = true ∧
          billetOpen s 0 = true ∧
            (nextOf (exec .analysisCompletion (completingAlone 0 0 s))).map (fun u => decide (EndsInTheQueue u 0)) =
              some true ∧
              ((modRecord 1 (fun r => { r with pendingCmd := some .stop }) s).chan 1).record.pendingCmd ≠ none := by
  decide +kernel

/-- A completion of a STALLED channel whose abandonment was put off, a set waiting. -/
theorem witness_SeedLineCompletionSeedsTheBackground_abandon :
    let s :=
      modChan 0 (fun ch => { ch with
        waiting := some set, tracks := [spanTrack 0 1 3 4]
        record := { ch.record with state := .stalled, abandonDue := true } }) (analysing .ordinary)
    (s.chan 0).record.pendingCmd = none ∧ (s.chan 0).record.abandonDue = true ∧ s.setup.command = .ready ∧
      (s.chan 0).capture.queue = [0] ∧ billetOpen s 0 = true ∧
        (nextOf (exec .analysisCompletion (completingAlone 0 0 s))).map (fun u => decide (EndsInTheQueue u 0)) =
          some true := by decide +kernel

/-- A completion that a RESET_PART waits for, and one with an APPLY in progress. -/
theorem witness_SeedLineCompletionSeedsTheBackground_in_progress :
    let s := setCommand (.inProgress (newRunning 1 8)) (analysing .warmup)
    let u := applying (analysing .warmup)
    (s.chan 0).record.pendingCmd = none ∧ (s.chan 0).record.abandonDue = false ∧ (newRunning 1 8).code = 8 ∧
      s.ring.resetWait = false ∧ u.setup.command = .inProgress (newRunning 7 1) ∧ (newRunning 7 1).code = 1 ∧
        (u.chan 0).capture.queue = [0] ∧ (u.chan 0).waiting ≠ none := by decide

/-- A trailer of channel 0 held since µs 0 for 500 µs. -/
def trailer : HeldTrailer := { entry := 0, txn := 3, beat := 0, start := 0, length := 500 }

/-- Channel 0 holding it at µs `us`. -/
def holding (us : Word32) : State :=
  { modChan 0 (fun ch => { ch with held := [trailer] }) (with0 .inspecting) with
    us := us
    path := { held.path with
      list := [{ id := 3, addr := 0x100060, body := .write [beat], held := true, watch := .all }] } }

theorem witness_HoldExpiryReleasesTheTrailerPending :
    heldOf (holding 500) 0 0 = some trailer ∧ trailer.length ≤ ((500 : Word32) - trailer.start).toNat ∧
      ((499 : Word32) - trailer.start).toNat < trailer.length := by decide

/-- Channel 0 with both timers as given at ms `ms`. -/
def timed (st : ChanState) (stall abandon : Option MsTimer) (ms : Word32) : State :=
  { modRecord 0 (fun r => { r with stall := stall, abandon := abandon }) (with0 st) with ms := ms }

theorem witness_StallExpiryStallsTheChannel :
    ((timed .inspecting (some ⟨0, 200⟩) none 200).chan 0).record.state = .inspecting ∧
      ((timed .inspecting (some ⟨0, 200⟩) none 200).chan 0).record.stall = some ⟨0, 200⟩ ∧
        200 ≤ ((200 : Word32) - 0).toNat ∧ ((199 : Word32) - 0).toNat < 200 := by decide

/-- The last channel that an APPLY waits for stalls, and one with a set waiting elsewhere. -/
theorem witness_StallExpiryStallsTheChannel_apply :
    let s := applying (timed .inspecting (some ⟨0, 200⟩) none 200)
    (s.chan 0).record.state = .inspecting ∧ (s.chan 0).record.stall = some ⟨0, 200⟩ ∧
      s.setup.command = .inProgress (newRunning 7 1) ∧ (∀ x : Chan, x ≠ 0 → (s.chan x).waiting = none) ∧
        ((modChan 1 (fun ch => { ch with waiting := some set }) s).chan 1).waiting ≠ none := by decide

theorem witness_AbandonExpiryGivesUpTheBillet :
    let s := timed .stalled none (some ⟨0, 10000⟩) 10000
    (s.chan 0).record.state = .stalled ∧ (s.chan 0).record.abandon = some ⟨0, 10000⟩ ∧
      10000 ≤ (s.ms - 0).toNat ∧ inFlight s 0 = false ∧ (s.chan 0).capture.queue = [] ∧ (s.chan 0).tracks = [] ∧
        (s.chan 0).band.episode.state = .absent ∧ s.ring.queue.length < 64 ∧
          inFlight { s with engine := (analysing .ordinary).engine } 0 = true ∧ ((9999 : Word32) - 0).toNat < 10000 := by
  decide

/-- With a track open, 62 records queued; with none, 64. -/
theorem witness_AbandonExpiryGivesUpTheBillet_records :
    let s := timed .stalled none (some ⟨0, 10000⟩) 10000
    EndsInTheQueue (queuedRecords 62 (modChan 0 (fun ch => { ch with tracks := [spanTrack 0 1 3 4] }) s)) 0 ∧
      64 ≤ (queuedRecords 64 s).ring.queue.length := by decide +kernel

/-! ## The host's commands -/

/-- The bytes of `n` staged as little-endian at `k`. -/
def stageField (k n : Nat) : Store Byte → Store Byte := fun m =>
  (leBytes 4 n).zipIdx.foldl (fun m x => writeStore 0 m (k + x.2) x.1) m

/-- The geometry of the tests, staged. -/
def stagedMap : Store Byte :=
  stageField 0xB8 0x2010 (stageField 0xB0 0x300000 (stageField 0xAC 0x20004 (stageField 0xA8 0x400004
    (stageField 0xA0 0x200000 ((List.range 8).foldl (fun m i => stageField (0x80 + 4 * i) 0x40004 m)
      ((List.range 16).foldl (fun m c => stageField (8 * c) (0x100000 + 0x1000 * c) m) []))))))

theorem test_stagedGeometry : stagedGeometry stagedMap = geometry := by decide +kernel

/-- No geometry held, the test's geometry staged. -/
def unapplied : State := { bare with setup := { bare.setup with staged := stagedMap } }

/-- An INSPECTING channel and none, before and after geometry is held. -/
theorem witness_ApplyTakesTheStagedSettings :
    Accepting unapplied ∧ unapplied.setup.command = .ready ∧ wfStore 0 unapplied.setup.staged = true ∧
      (∀ c : Chan, (unapplied.chan c).waiting = none) ∧ unapplied.setup.geometry = none ∧
        failedCheck unapplied.setup.strap (stagedGeometry unapplied.setup.staged) = none ∧
          (∀ c : Chan, (unapplied.chan c).record.state ≠ .inspecting) ∧ Accepting (with0 .inspecting) ∧
            wfStore 0 (with0 .inspecting).setup.staged = true ∧ (∀ c : Chan, ((with0 .inspecting).chan c).waiting = none) ∧
              (with0 .inspecting).setup.geometry ≠ none ∧ ∃ c : Chan, ((with0 .inspecting).chan c).record.state = .inspecting := by
  decide +kernel

theorem witness_ApplyIsRefusedByItsFirstFailingCheck :
    Accepting bare ∧ bare.setup.command = .ready ∧ wfStore 0 bare.setup.staged = true ∧ bare.setup.geometry = none ∧
      failedCheck bare.setup.strap (stagedGeometry bare.setup.staged) = some 1 := by decide

theorem witness_StartBringsOffChannelsToWaiting :
    TakenAtOnce 0x8001 held ∧ TakenAtOnce 0x8001 (with0 .waiting) ∧
      (∀ c : Chan, (0x8001 : BitVec 16).getLsbD c.val = true → (held.chan c).record.state = .off) ∧
        (∃ c : Chan, (0x8001 : BitVec 16).getLsbD c.val = true ∧ ((with0 .waiting).chan c).record.state ≠ .off) := by decide

theorem witness_StopAndIsolateTearTheChannelDown :
    TakenAtOnce 1 tracked ∧ Watching tracked 0 ∧ TakenAtOnce 1 (with0 .passOnly) ∧
      ((with0 .passOnly).chan 0).record.state = .passOnly ∧ TakenAtOnce 1 held ∧ (held.chan 0).record.state = .off ∧
        (1 : BitVec 16) = BitVec.ofNat 16 (2 ^ (0 : Chan).val) ∧ billetOpen (with0 .inspecting) 0 = true ∧
          TakenAtOnce 1 (with0 .inspecting) ∧ ((with0 .inspecting).chan 0).tracks = [] ∧
            ((with0 .inspecting).chan 0).band.episode.state = .absent ∧ (with0 .inspecting).ring.queue.length < 64 := by
  decide

/-- With a billet, two tracks open and a mark in the strand's queue; and with marks alone. -/
theorem witness_StopAndIsolateTearTheChannelDown_tracks_and_marks :
    let s := { tracked with strands := marked.strands }
    let u := { with0 .inspecting with strands := marked.strands }
    TakenAtOnce 1 s ∧ billetOpen s 0 = true ∧ EndsInTheQueue s 0 ∧ Watching s 0 ∧
      (∃ m ∈ (s.strands.get (strandOf 0)).queue, m.chan = 0) ∧ TakenAtOnce 3 u ∧
        (∀ c : Chan, (3 : BitVec 16).getLsbD c.val = true → (u.chan c).tracks = [] ∧ (u.chan c).band.episode.state = .absent) := by
  decide +kernel

theorem witness_RestartReturnsTheChannelToWaiting :
    TakenAtOnce 1 tracked ∧ (tracked.chan 0).record.state ≠ .off ∧ TakenAtOnce 3 tracked ∧
      (tracked.chan 1).record.state = .off := by decide

/-- A teardown of a channel that holds a trailer, its transaction the first of the list. -/
theorem witness_StopAndIsolateTearTheChannelDown_held_trailer :
    TakenAtOnce 1 (holding 5) ∧ Watching (holding 5) 0 ∧ trailer ∈ ((holding 5).chan 0).held ∧
      ((holding 5).path.list[0]?).map SysTxn.id = some trailer.txn ∧
        ∀ k ∈ ((holding 5).chan 0).held, k.txn = trailer.txn → k.beat = trailer.beat := by decide

/-- RESTART of that channel. -/
theorem witness_RestartReturnsTheChannelToWaiting_held_trailer :
    TakenAtOnce 1 (holding 5) ∧ ((holding 5).chan 0).record.state ≠ .off ∧
      ((holding 5).path.list[0]?).map SysTxn.id = some trailer.txn := by decide

theorem witness_CommandsWaitForTheAnalysisInFlight :
    commandOf (.stop 7 1) = some (4, 7, 1) ∧ chanCommandOf 4 = some .stop ∧ CommandTaken (analysing .ordinary) ∧
      (1 : BitVec 16).getLsbD (0 : Chan).val = true ∧ inFlight (analysing .ordinary) 0 = true := by decide

/-- Slot 0 FILLING with `n` places. -/
def placed (n : Nat) : State := ringed fun r => { r with slots := [⟨.filling, n⟩, ⟨.free, 0⟩] }

/-- Records await release with 1 and with 3 of 4 places assigned, none with 0 or 4; and a blocked ring. -/
theorem witness_FlushKeepsOrDiscardsTheRequest :
    CommandTaken (placed 1) ∧ (placed 1).ring.resetWait = false ∧ (placed 1).ring.fill = .filling 0 ∧
      1 ≤ placesOf (placed 1).ring 0 ∧ placesOf (placed 3).ring 0 < heldB (placed 3) ∧ placesOf (placed 0).ring 0 = 0 ∧
        heldB (placed 4) ≤ placesOf (placed 4).ring 0 ∧ (placed 4).ring.queue = [] ∧ CommandTaken (readySlot1 true) ∧
          (readySlot1 true).ring.fill = .blocked 1 := by decide

theorem witness_ResetPartResetsEveryBlock :
    CommandTaken (holding 5) ∧ (holding 5).engine.analysis = none ∧ trailer ∈ ((holding 5).chan 0).held ∧
      CommandTaken (analysing .ordinary) ∧ (analysing .ordinary).engine.analysis ≠ none := by decide

theorem witness_UnknownCodesAreRefusedUnknown :
    Accepting bare ∧ bare.setup.command = .ready ∧ wfStore 0 bare.setup.staged = true ∧ (0 : Byte).toNat = 0 ∧
      8 < (9 : Byte).toNat := by decide

/-- Codes 2 and 8 without geometry; codes 2 and 6 with geometry held and a mask of 0. -/
theorem witness_UnknownCodesAreRefusedUnknown_later_tests :
    commandOf (.start 7 1) = some (2, 7, 1) ∧ commandOf (.resetPart 7 0) = some (8, 7, 0) ∧ bare.setup.geometry = none ∧
      commandOf (.start 7 0) = some (2, 7, 0) ∧ commandOf (.restart 7 0) = some (6, 7, 0) ∧ Accepting held ∧
        held.setup.command = .ready ∧ wfStore 0 held.setup.staged = true ∧ held.setup.geometry ≠ none := by decide

/-- A STOP in progress, channel 0's analysis in flight. -/
def busy : State :=
  setCommand (.inProgress (newRunning 1 4)) (modRecord 0 (fun r => { r with pendingCmd := some .stop }) (analysing .ordinary))

theorem witness_CommandsInProgressRefuseOthersBusy :
    commandOf (.flush 7 0) = some (7, 7, 0) ∧ Accepting busy ∧ wfStore 0 busy.setup.staged = true ∧
      busy.setup.command = .inProgress (newRunning 1 4) ∧ commandDone (newRunning 1 4) busy = false := by decide

/-! ## The ring writer, the marks and the status unit -/

/-- Slot 0 FILLING with `n` places and one record queued. -/
def oneRecord (n : Nat) : State := modRing (fun r => { r with queue := [gapRecord], batchAge := 5 }) (placed n)

/-- Place 0, and place B − 1 with 23 writes queued. -/
theorem witness_RecordPlacementWritesTheHeadRecord :
    (oneRecord 0).setup.geometry = some geometry ∧ (oneRecord 0).ring.fill = .filling 0 ∧
      placesOf (oneRecord 0).ring 0 = 0 ∧ placesOf (oneRecord 3).ring 0 < geometry.b ∧
        (oneRecord 3).ring.resetWait = false ∧ (records 23).length < 24 ∧ (oneRecord 0).ring.queue = [gapRecord] := by decide

/-- A pending flush of slot 0 with `n` places, `q` writes queued. -/
def flushing (n q : Nat) : State :=
  modPath (fun p => { p with queue := records q }) (modRing (fun r => { r with flushPending := true }) (placed n))

theorem witness_FlushApplyFillsTheSlot :
    (flushing 1 21).setup.geometry = some geometry ∧ (flushing 1 21).ring.fill = .filling 0 ∧
      (flushing 1 21).ring.flushPending = true ∧ (flushing 1 21).ring.queue = [] ∧
        1 ≤ placesOf (flushing 1 21).ring 0 ∧ placesOf (flushing 3 24).ring 0 < geometry.b ∧
          (flushing 1 21).path.queue.length + (geometry.b - placesOf (flushing 1 21).ring 0) ≤ 24 ∧
            24 ≤ (flushing 3 24).path.queue.length ∧ (flushing 3 24).ring.resetWait = false := by decide

/-- RESET_PART awaits the ring writer, which is blocked. -/
def resetting : State :=
  setCommand (.inProgress (newRunning 1 8)) (modRing (fun r => { r with resetWait := true }) (readySlot1 true))

theorem witness_RingTakesResetPart :
    resetting.ring.resetWait = true ∧ resetting.ring.outstanding = 0 ∧
      resetting.setup.command = .inProgress (newRunning 1 8) := by decide

/-- The batch age timer running for 50 ms at ms `ms`. -/
def aging (ms : Word32) : State := { modRing (fun r => { r with age := some ⟨0, 50⟩ }) (placed 1) with ms := ms }

/-- The B-th record to be placed at ms 50, `n` writes queued. -/
def tied (n : Nat) : State :=
  modPath (fun p => { p with queue := records n })
    { modRing (fun r => { r with age := some ⟨0, 50⟩ }) (oneRecord 3) with ms := 50 }

/-- The flush pending flag of a next state. -/
def flushAfter : Host.Outcome State Fault Refusal → Option Bool
  | .next t => some t.ring.flushPending
  | .fault _ => none
  | .refused _ => none

/-- The queue empty behind the B-th record: an expiry that comes with its placement leaves the flag clear, and sets it where
the memory path does not admit the record (R141). -/
theorem test_batchAgeExpiry_tie :
    flushAfter (execBatchAgeExpiry (tied 23)) = some false ∧ flushAfter (execBatchAgeExpiry (tied 24)) = some true := by
  decide

theorem witness_BatchAgeExpiryAsksForAFlush :
    (tied 23).ring.fill = .filling 0 ∧ placesOf (tied 23).ring 0 + 1 = heldB (tied 23) ∧
      (tied 23).ring.queue = [gapRecord] ∧ (tied 23).path.queue.length < 24 ∧ 24 ≤ (tied 24).path.queue.length ∧
      (aging 50).ring.age = some ⟨0, 50⟩ ∧ 50 ≤ ((aging 50).ms - 0).toNat ∧ (aging 50).ring.resetWait = false ∧
      ((aging 49).ms - 0).toNat < 50 := by decide

/-- Strand 0's pulse ending at ms 20. -/
def pulsing (ms : Word32) : State := { modStrand 0 (fun k => { k with pulse := some 20 }) held with ms := ms }

theorem witness_PulseEndsAtItsEnd :
    ((pulsing 20).strands.get 0).pulse = some 20 ∧ ((pulsing 20).ms - 20).toNat < 2147483648 ∧
      2147483648 ≤ ((pulsing 19).ms - 20).toNat := by decide

theorem witness_ExpiredMarksLeaveTheQueue :
    let m : Mark := { trigger := 500, chan := 0, expiry := 1000 }
    m ∈ (marked.strands.get 0).queue ∧ (({ marked with ms := 1000 } : State).ms - m.expiry).toNat < 2147483648 := by decide

/-- A trigger at the last count is LATE, one ahead of it within 100 counts of an entry MERGED, and 101 from both SCHEDULED;
with eight entries DROPPED. -/
theorem witness_MarkRequestsAreAnsweredInOrder :
    (marked.strands.get (strandOf 0)).lastCount = some 100 ∧ ((100 : Word32) - 100).toNat < 2147483648 ∧
      ¬((100 : Word32) - 400).toNat < 2147483648 ∧
        (∃ m ∈ (marked.strands.get 0).queue, min (m.trigger - 400).toNat (400 - m.trigger).toNat ≤ 100) ∧
          ¬(∃ m ∈ (marked.strands.get 0).queue, min (m.trigger - 399).toNat (399 - m.trigger).toNat ≤ 100) ∧
            8 ≤ ((List.replicate 8 { trigger := 500, chan := 0, expiry := 0 } : List Mark)).length := by decide

/-- The snapshot timer running for 10 ms at ms `ms`, seven writes queued. -/
def snapping (ms : Word32) : State :=
  { modStatus (fun st => { st with snapshot := some ⟨0, 10⟩ }) (pathed fun p => { p with queue := records 7 }) with ms := ms }

theorem witness_SnapshotOffersSeventeenBlocks :
    (snapping 10).status.snapshot = some ⟨0, 10⟩ ∧ 10 ≤ ((snapping 10).ms - 0).toNat ∧ (snapping 10).path.queue.length ≤ 7 ∧
      (∀ i, i < 17 →
        (snapping 10).path.queue.any (sameAddress (setupBase (snapping 10).setup.strap + (0x2400 + 64 * i))) = false) ∧
        ((snapping 9).ms - 0).toNat < 10 := by decide

/-! ## Lines, pitch, tracks and classes -/

theorem witness_BackgroundMovesTowardsThePixel :
    let x : Column := { index := 0, p := 255, b := 65280, stuck := 3 }
    x.b ≤ 65280 ∧ x.p ≤ 255 ∧ saturated { params with satLevel := 256 } x = false ∧
      isDark { params with satLevel := 256 } 512 x = false ∧
        saturated params { x with p := 249, b := 64255 } = false ∧ isDark params 512 { x with p := 249, b := 64255 } = false := by
  decide

theorem witness_RunsPartitionTheDarkColumns :
    ([⟨410, 1, 2000, 0⟩, ⟨411, 1, 2000, 0⟩, ⟨413, 1, 2000, 0⟩] : List Column).map Column.index |>.Pairwise (· < ·) := by
  decide

/-- R62's example: dark columns 410, 411 and 413 are one run with BR = 1 and two with BR = 0. -/
theorem test_runs_example :
    let ds : List Column := [⟨410, 1, 2000, 0⟩, ⟨411, 1, 2000, 0⟩, ⟨413, 1, 2000, 0⟩]
    ((runsOfDark 1 ds).map fun r => (r.lo, r.hi, r.area)) = [(410, 413, 3)] ∧
      ((runsOfDark 0 ds).map fun r => (r.lo, r.hi, r.area)) = [(410, 411, 2), (413, 413, 1)] := by decide

theorem witness_OnPitchSpacingsLieNearAMultiple :
    2 ≤ 12000 ∧ onPitch 12900 12000 1500 = true ∧ onPitch 49500 12000 1500 = true := by decide

/-- Channel 0 with an open episode of `n` lines and a previous centre. -/
def banded (n : Nat) : State :=
  modChan 0 (fun ch => { ch with
    band := { ch.band with
      episode := { firstEpisode 7 112000 { lo := 2, hi := 9, peak := 4000, dark := 8 } with lines := n, lastPos := 113800 }
      prevCentre := some 100000 } }) (with0 .inspecting)

/-- Chapter 4: an episode of centre 112,900 with P = 12,000 and PTOL = 1,500 leaves its sample 12,900 in the ring and its centre
as the previous one; its twentieth line closes it as LONG (BANDMAX = 20), counted as transverse. -/
theorem test_afterBandOutcome_examples :
    (let b := ((afterTest 0 set ((banded 3).chan 0).band.episode .gap (banded 3)).chan 0).band
     (b.pitchRing, b.prevCentre, b.episode.state)) = ([12900], some 112900, .absent) ∧
      (let ch := (afterBandOutcome 0 set 9 113900 (some { lo := 1, hi := 5, peak := 1, dark := 5 }) (banded 19)).chan 0
       (ch.band.prevCentre, ch.record.tallies.transverse, ch.band.episode.state)) = (some 100000, 1, .absent) := by
  decide +kernel

/-- Episodes to close, and none; the bounds of the pitch in order, with a ring of four samples learned from. -/
theorem witness_OnPitchSpacingsLieNearAMultiple_episodes :
    ((banded 3).chan 0).band.episode.state ≠ .absent ∧ ((with0 .inspecting).chan 0).band.episode.state = .absent ∧
      ({ params with learn := true } : ChanParams).pMin ≤ ({ params with learn := true } : ChanParams).pMax ∧
        4 ≤ [12900, 12300, 12000, 11900].length := by decide

theorem witness_RunsExtendTheOldestCandidate :
    let l : LineRuns := { seq := 804, count := 0, pos := 0, runs := [spanRun 3 5], clutter := false, ls := 2, g := 3 }
    ([spanTrack 0 802 3 4, spanTrack 1 801 4 5, spanTrack 2 801 5 6].map Track.id).Pairwise (· < ·) ∧
      extendedBy l [spanTrack 0 802 3 4, spanTrack 1 801 4 5, spanTrack 2 801 5 6] (spanRun 3 5) =
        some (spanTrack 1 801 4 5) ∧
        extendedBy l [spanTrack 0 802 8 9] (spanRun 3 5) = none ∧
          extendedBy l [spanTrack 0 802 7 9] (spanRun 3 5) = some (spanTrack 0 802 7 9) := by decide

/-- All 32 entries open, a run that meets none of them. -/
theorem witness_RunsExtendTheOldestCandidate_full_table :
    let s := modChan 0 (fun ch => { ch with tracks := (List.range 32).map fun i => spanTrack i 801 3 4 }) (with0 .inspecting)
    let l : LineRuns := { seq := 804, count := 0, pos := 0, runs := [spanRun 30 35], clutter := true, ls := 2, g := 3 }
    TracksSound (s.chan 0).tracks ∧ runsLost l (s.chan 0).tracks = 1 ∧ runsLost l [] = 0 := by decide +kernel

/-- Chapter 5, line 804, by the statement's own terms. -/
theorem test_trackAfter_line804 :
    let old := [spanTrack 1 801 500 501, spanTrack 2 802 507 513]
    let l : LineRuns := { seq := 804, count := 0, pos := 41800, runs := [spanRun 498 512], clutter := false, ls := 2, g := 2 }
    (old.map (trackAfter l old)).map (fun t => (t.id, t.spanLo, t.spanHi, t.lines, t.gap, t.joined)) =
      [(1, 498, 512, 2, 0, false), (2, 507, 513, 1, 1, true)] := by decide

/-- A profile entry that every closure of the tests matches. -/
def profile : Profile := { Profile.zero with enabled := true, orientations := 15, classCode := 20, severity := 2 }

/-- The table whose entry 15 alone is that one. -/
def profiled : ParamSet := { set with profiles := Bank4.all ((Bank16.all Profile.zero).set 15 profile) }

theorem witness_TheFirstMatchingEntryDecides :
    (profiled.profiles.get (tableIndex profiled.chan.profile)).toList[15]? = some profile ∧
      profileMatches (heldW tracked) profiled.chan (closure 3600 30 40) profile = true ∧
        (∀ m : Fin 15,
          profileMatches (heldW tracked) profiled.chan (closure 3600 30 40)
            ((profiled.profiles.get (tableIndex profiled.chan.profile)).get ⟨m.val, by omega⟩) = false) ∧
          tracked.ring.queue.length < 64 ∧
            (∀ e ∈ (set.profiles.get (tableIndex set.chan.profile)).toList,
              profileMatches (heldW tracked) set.chan (closure 3600 30 40) e = false) := by decide

/-- The table whose first entry alone matches, with mark yes; the channel LIVE. -/
theorem witness_TheFirstMatchingEntryDecides_mark :
    let marking := { profile with mark := true }
    let table := { set with profiles := Bank4.all ((Bank16.all Profile.zero).set 0 marking) }
    (table.profiles.get (tableIndex table.chan.profile)).toList[0]? = some marking ∧
      profileMatches (heldW tracked) table.chan (closure 3600 30 40) marking = true ∧
        (tracked.chan 0).record.mode = .live := by decide

/-- The record queue full: a matched closure's record is lost. -/
theorem witness_TheFirstMatchingEntryDecides_full_queue :
    let s := queuedRecords 64 tracked
    64 ≤ s.ring.queue.length ∧
      profileMatches (heldW s) profiled.chan (closure 3600 30 40) profile = true ∧
        64 ≤ fullRecords.ring.queue.length ∧ fullRecords.ring.loss ≠ none := by decide +kernel

/-- R117: an entry that asks for MARK and a length of 3601 µs does not match a closure of 3600 µs outside a mark. -/
theorem test_profileMatches_examples :
    profileMatches 64 params (closure 3600 30 40) { profile with minLength := 3600 } = true ∧
      profileMatches 64 params (closure 3600 30 40) { profile with minLength := 3601 } = false ∧
        profileMatches 64 params (closure 3600 30 40) { profile with inMark := .required } = false ∧
          profileMatches 64 params (closure 3600 30 40) { profile with inMark := .excluded } = true := by decide

theorem witness_ClampedSettingsLieInTheirRanges : 64 ≤ geometry.w := by decide

end Sys2Proof.Tests
end

section
/-! The background update of a line's columns (R59): how far it moves, and the obligation about it. -/

namespace Sys2Proof.Machine

/-! ## A floored division by a power of two -/

/-- The shift A enters the arithmetic of R59 only here: as a divisor of 1 or more, for which the floor is `/`. -/
theorem fdiv_two_pow (d : Int) (a : Nat) : Int.fdiv d (2 ^ a) = d / 2 ^ a :=
  Int.fdiv_eq_ediv_of_nonneg d (by positivity)

/-- R59: for a difference of 0 or more, the step is from 0 to the difference. -/
theorem fdiv_two_pow_of_nonneg {d : Int} (a : Nat) (hd : 0 ≤ d) :
    0 ≤ Int.fdiv d (2 ^ a) ∧ Int.fdiv d (2 ^ a) ≤ d := by
  rw [fdiv_two_pow]
  exact ⟨Int.ediv_nonneg hd (by positivity), Int.ediv_le_self _ hd⟩

/-- R59: for a difference of 0 or less, the step is from the difference to 0. -/
theorem fdiv_two_pow_of_nonpos {d : Int} (a : Nat) (hd : d ≤ 0) :
    d ≤ Int.fdiv d (2 ^ a) ∧ Int.fdiv d (2 ^ a) ≤ 0 := by
  have hpos : (0 : Int) < 2 ^ a := by positivity
  rw [fdiv_two_pow]
  constructor
  · have hmul : d * 2 ^ a ≤ d * 1 := mul_le_mul_of_nonpos_left (by omega) hd
    exact Int.le_ediv_of_mul_le hpos (by omega)
  · exact (Int.ediv_le_ediv hpos hd).trans_eq (Int.zero_ediv _)

/-! ## The moved background -/

/-- R59's value is never negative, so nothing is lost in taking it as a natural number. -/
theorem movedBackground_cast (q : ChanParams) (x : Column) :
    (movedBackground q x : Int) = (x.b : Int) + Int.fdiv (256 * (x.p : Int) - (x.b : Int)) (2 ^ q.a) := by
  refine Int.toNat_of_nonneg ?_
  rcases le_total 0 (256 * (x.p : Int) - x.b) with h | h
  · have := fdiv_two_pow_of_nonneg q.a h
    omega
  · have := fdiv_two_pow_of_nonpos q.a h
    omega

/-- A background at or below the pixel rises, and not past it. -/
theorem movedBackground_of_le {q : ChanParams} {x : Column} (h : x.b ≤ 256 * x.p) :
    x.b ≤ movedBackground q x ∧ movedBackground q x ≤ 256 * x.p := by
  have hcast := movedBackground_cast q x
  have hstep := fdiv_two_pow_of_nonneg (d := 256 * (x.p : Int) - x.b) q.a (by omega)
  omega

/-- A background at or above the pixel falls, and not past it. -/
theorem movedBackground_of_ge {q : ChanParams} {x : Column} (h : 256 * x.p ≤ x.b) :
    256 * x.p ≤ movedBackground q x ∧ movedBackground q x ≤ x.b := by
  have hcast := movedBackground_cast q x
  have hstep := fdiv_two_pow_of_nonpos (d := 256 * (x.p : Int) - x.b) q.a (by omega)
  omega

/-- The background stays in its range without a clamp (65280 is 256 × 255). -/
theorem movedBackground_le {q : ChanParams} {x : Column} (hb : x.b ≤ 65280) (hp : x.p ≤ 255) :
    movedBackground q x ≤ 65280 := by
  rcases le_total x.b (256 * x.p) with h | h
  · have := (movedBackground_of_le (q := q) h).2
    omega
  · exact (movedBackground_of_ge h).2.trans hb

/-! ## The pair an ordinary line leaves -/

theorem ordinaryPair_of_not_dark {q : ChanParams} {t : Nat} {x : Column} (hs : saturated q x = false)
    (hd : isDark q t x = false) : ordinaryPair q t x = (movedBackground q x, 0) := by
  simp [ordinaryPair, hs, hd]

/-- Settles O54, by the sign of the difference between the pixel and the background. -/
theorem backgroundMovesTowardsThePixel : Obligations.BackgroundMovesTowardsThePixel := by
  intro q t x hb hp hs hd
  rw [ordinaryPair_of_not_dark hs hd]
  exact ⟨rfl, movedBackground_cast q x, movedBackground_le hb hp, movedBackground_of_le, movedBackground_of_ge⟩

end Sys2Proof.Machine
end

section
/-! How the classifier judges a closure (R114, R115, R117): EDGE, orientation and match, and the obligation about them. -/

namespace Sys2Proof.Machine

variable {w : Nat} {p : ChanParams} {k : Closure}

/-- R114. The margins and EDGEC are subtracted on integers, so neither a small W nor an EDGEC of 0 wraps. -/
theorem isEdge_iff :
    isEdge w p k = true ↔
      1 ≤ p.edgeC ∧
        ((k.lo : Int) ≤ (p.mLo : Int) + p.edgeC - 1 ∨ (w : Int) - p.mHi - p.edgeC ≤ (k.hi : Int)) := by
  have hlo : k.lo + 1 ≤ p.mLo + p.edgeC ↔ (k.lo : Int) ≤ (p.mLo : Int) + p.edgeC - 1 := by omega
  have hhi : w ≤ k.hi + p.mHi + p.edgeC ↔ (w : Int) - p.mHi - p.edgeC ≤ (k.hi : Int) := by omega
  simp only [isEdge, Bool.and_eq_true, Bool.or_eq_true, decide_eq_true_eq, hlo, hhi]

/-! ## The orientation: one equation per test of R115's list -/

theorem orientationOf_of_band (hb : k.band = true) : orientationOf p k = .transverse :=
  if_pos hb

theorem orientationOf_spot (hb : k.band = false) (hl : closureLength k < p.spot) (hw : closureWidth p k < p.spot) :
    orientationOf p k = .spot := by
  simp [orientationOf, hb, hl, hw]

/-- Past the SPOT test, only the proportion of length to width decides. -/
theorem orientationOf_of_not_spot (hb : k.band = false) (hs : p.spot ≤ closureLength k ∨ p.spot ≤ closureWidth p k) :
    orientationOf p k =
      if 2 * closureWidth p k ≤ closureLength k then .longitudinal
      else if 2 * closureLength k ≤ closureWidth p k then .transverse
      else .oblique := by
  have hns : ¬ (closureLength k < p.spot ∧ closureWidth p k < p.spot) := by omega
  simp [orientationOf, hb, hns]

/-! ## The match -/

/-- R117: a condition on a flag. -/
theorem meetsFlag_iff {q : FlagCondition} {b : Bool} :
    meetsFlag q b = true ↔ q = .any ∨ (q = .required ∧ b = true) ∨ (q = .excluded ∧ b = false) := by
  cases q <;> simp [meetsFlag]

theorem profileMatches_iff {e : Profile} :
    profileMatches w p k e = true ↔
      e.enabled = true ∧ e.orientations.getLsbD (orientationBit (orientationOf p k)) = true ∧
        e.minLength ≤ closureLength k ∧ e.minWidth ≤ closureWidth p k ∧ e.minPeak ≤ k.peak ∧ e.minArea ≤ k.area ∧
        meetsFlag e.inMark k.inMark = true ∧ meetsFlag e.edge (isEdge w p k) = true := by
  simp only [profileMatches, Bool.and_eq_true, decide_eq_true_eq, and_assoc]

/-- Settles O58: R114, R115's list test by test, and R117 with its two flag conditions spelt out. -/
theorem closuresTakeTheirEdgeAndOrientation : Obligations.ClosuresTakeTheirEdgeAndOrientation := by
  intro w p k
  refine ⟨isEdge_iff, orientationOf_of_band, fun hb => ⟨orientationOf_spot hb, fun hs => ?_⟩, fun e => ?_⟩
  · rw [orientationOf_of_not_spot hb hs]
    refine ⟨fun hlong => if_pos hlong, fun hlong hwide => ?_, fun hlong hwide => ?_⟩
    · rw [if_neg hlong.not_ge, if_pos hwide]
    · rw [if_neg hlong.not_ge, if_neg hwide.not_ge]
  · rw [← meetsFlag_iff, ← meetsFlag_iff]
    exact profileMatches_iff

end Sys2Proof.Machine
end

section
/-! How the mark scheduler answers a request (R148): the answer by the first test that holds, the effect of each answer, and
the obligation about them. -/

namespace Sys2Proof.Machine

/-! ## The tests, and the answer that each gives -/

theorem atOrAhead_iff {a b : Word32} : atOrAhead a b = true ↔ (a - b).toNat < 2147483648 :=
  decide_eq_true_iff

theorem withinMerge_iff {window : Nat} {t u : Word32} :
    withinMerge window t u = true ↔ min (t - u).toNat (u - t).toNat ≤ window :=
  decide_eq_true_iff

section Answer

variable {k : StrandState} {trigger n : Word32}

/-- R148's first test, where the strand has a last count. -/
theorem isLate_iff (hn : k.lastCount = some n) : isLate k trigger = true ↔ (n - trigger).toNat < 2147483648 := by
  rw [isLate, hn]
  exact atOrAhead_iff

/-- R148's second test: the circular distance to some queued trigger is at most MERGE. -/
theorem any_withinMerge_iff :
    k.queue.any (fun m => withinMerge k.merge m.trigger trigger) = true ↔
      ∃ m ∈ k.queue, min (m.trigger - trigger).toNat (trigger - m.trigger).toNat ≤ k.merge := by
  simp only [List.any_eq_true, withinMerge_iff]

theorem markAnswer_late (hn : k.lastCount = some n) (hl : (n - trigger).toNat < 2147483648) :
    markAnswer k trigger = .late :=
  if_pos ((isLate_iff hn).mpr hl)

/-- Past the first test, R148's other three. -/
theorem markAnswer_of_not_late (hn : k.lastCount = some n) (hl : ¬ (n - trigger).toNat < 2147483648) :
    markAnswer k trigger =
      if ∃ m ∈ k.queue, min (m.trigger - trigger).toNat (trigger - m.trigger).toNat ≤ k.merge then .merged
      else if 8 ≤ k.queue.length then .dropped
      else .scheduled := by
  simp only [markAnswer, isLate_iff hn, if_neg hl, any_withinMerge_iff]

end Answer

/-- R149: an insertion adds the entry and loses none, wherever it puts it. -/
theorem insertMark_perm (last : Option Word32) (m : Mark) (q : List Mark) : (insertMark last m q).Perm (m :: q) := by
  induction q with
  | nil => exact .refl _
  | cons x xs ih =>
    unfold insertMark
    split
    · exact .refl _
    · exact (ih.cons x).trans (.swap m x xs)

/-! ## The effect of each answer -/

theorem latchPart_latched (p : PartCond) (s : State) :
    (latchPart p s).status.part.latched = s.status.part.latched ||| condSet (partCondBit p) :=
  congrArg CondWord.latched (condWordOf_latchBit_same .part (partCondBit p) s)

/-- A part-wide event that is counted and latched leaves every strand as it was. -/
theorem latchPart_modPartCounters (p : PartCond) (f : PartCounters → PartCounters) (s : State) :
    (latchPart p (modPartCounters f s)).strands = s.strands ∧
      (latchPart p (modPartCounters f s)).status.partCounters = f s.status.partCounters ∧
      (latchPart p (modPartCounters f s)).status.part.latched = s.status.part.latched ||| condSet (partCondBit p) := by
  have hoffers := latchPart_offersOnly p (modPartCounters f s)
  exact ⟨hoffers.strands, hoffers.partCounters, latchPart_latched p (modPartCounters f s)⟩

section Effect

variable {c : Chan} {trigger : Word32} {s : State}

theorem requestMark_late (h : markAnswer (s.strands.get (strandOf c)) trigger = .late) :
    requestMark c trigger s =
      latchPart .markLate (modPartCounters (fun k => { k with marksLate := sat16 (k.marksLate + 1) }) s) := by
  rw [requestMark, h]

theorem requestMark_merged (h : markAnswer (s.strands.get (strandOf c)) trigger = .merged) :
    requestMark c trigger s = s := by
  rw [requestMark, h]

theorem requestMark_dropped (h : markAnswer (s.strands.get (strandOf c)) trigger = .dropped) :
    requestMark c trigger s =
      latchPart .markDropped (modPartCounters (fun k => { k with marksDropped := sat16 (k.marksDropped + 1) }) s) := by
  rw [requestMark, h]

theorem requestMark_scheduled (h : markAnswer (s.strands.get (strandOf c)) trigger = .scheduled) :
    requestMark c trigger s =
      modStrand (strandOf c)
        (fun k => { k with queue := insertMark k.lastCount (newMark s.ms k c trigger) k.queue }) s := by
  rw [requestMark, h]

/-- A SCHEDULED request adds its entry to its own strand's queue, and touches no other strand and no status. -/
theorem requestMark_scheduled_effect (h : markAnswer (s.strands.get (strandOf c)) trigger = .scheduled) :
    ((requestMark c trigger s).strands.get (strandOf c)).queue.Perm
        (newMark s.ms (s.strands.get (strandOf c)) c trigger :: (s.strands.get (strandOf c)).queue) ∧
      (∀ j, j ≠ strandOf c → (requestMark c trigger s).strands.get j = s.strands.get j) ∧
      (requestMark c trigger s).status = s.status := by
  rw [requestMark_scheduled h, modStrand_strands, Bank4.get_set_same]
  exact ⟨insertMark_perm _ _ _, fun j hj => Bank4.get_set_other _ _ hj, rfl⟩

end Effect

/-- Settles O52: R148's tests in their order, each with the answer and the effect that it gives. -/
theorem markRequestsAreAnsweredInOrder : Obligations.MarkRequestsAreAnsweredInOrder := by
  intro c trigger n s hn
  split
  case isTrue hl =>
    have hlate := markAnswer_late hn hl
    rw [requestMark_late hlate]
    exact ⟨hlate, latchPart_modPartCounters _ _ s⟩
  case isFalse hl =>
    have hother := markAnswer_of_not_late hn hl
    split
    case isTrue hm =>
      have hmerged := hother.trans (if_pos hm)
      exact ⟨hmerged, requestMark_merged hmerged⟩
    case isFalse hm =>
      rw [if_neg hm] at hother
      split
      case isTrue hfull =>
        have hdropped := hother.trans (if_pos hfull)
        rw [requestMark_dropped hdropped]
        exact ⟨hdropped, latchPart_modPartCounters _ _ s⟩
      case isFalse hfull =>
        have hscheduled := hother.trans (if_neg hfull)
        exact ⟨hscheduled, requestMark_scheduled_effect hscheduled⟩

end Sys2Proof.Machine
end

section
/-! The host's write of the command word (R172, R173) and FLUSH (R181): what the write stages and lists before its command
runs, what a flush request makes of the ring writer (R139), and the obligation about them. -/

namespace Sys2Proof.Machine

open Sys2Proof.Safety

/-! ## Bytes of a beat (R192) -/

theorem leNat_div_mod (bs : List Byte) (i : Nat) : leNat bs / 256 ^ i % 256 = (bs.getD i 0).toNat := by
  induction bs generalizing i with
  | nil => simp [leNat]
  | cons b bs ih =>
    have hb : b.toNat < 256 := b.isLt
    cases i with
    | zero =>
      simp only [leNat, pow_zero, Nat.div_one, List.getD_cons_zero]
      omega
    | succ i =>
      have htail : leNat (b :: bs) / 256 = leNat bs := by
        simp only [leNat]
        omega
      rw [Nat.pow_succ', ← Nat.div_div_eq_div_mul, htail, ih, List.getD_cons_succ]

/-- A beat made of bytes has them back, each at its place. -/
theorem byteOf_beatOf (bs : List Byte) {i : Nat} (hi : i < 8) : byteOf (beatOf bs) i = bs.getD i 0 := by
  have hbyte : leNat bs % 2 ^ 64 / 2 ^ (8 * i) % 2 ^ 8 = leNat bs / 2 ^ (8 * i) % 2 ^ 8 := by
    rw [show 64 = 8 * i + (64 - 8 * i) by omega, Nat.pow_add, Nat.mod_mul_right_div_self]
    exact Nat.mod_mod_of_dvd _ (Nat.pow_dvd_pow 2 (by omega))
  apply BitVec.eq_of_toNat_eq
  rw [byteOf, beatOf, BitVec.extractLsb'_toNat, BitVec.toNat_ofNat, Nat.shiftRight_eq_div_pow, hbyte, Nat.pow_mul]
  exact leNat_div_mod bs i

/-! ## The command word as it is staged (R172) -/

/-- The staged copy after the host's write of the command word. -/
def stagedCommand (code tag : Byte) (mask : BitVec 16) (m : Store Byte) : Store Byte :=
  mergeBeat hostWritten commandWordAt (commandBeat code tag mask).data (commandBeat code tag mask).enables 8 m

section Staged

variable {code tag : Byte} {mask : BitVec 16} {m : Store Byte}

/-- The command word lies in a host-written region and all its enables are set, so each of its bytes is the beat's. -/
theorem readStore_stagedCommand (hm : wfStore 0 m = true) {i : Nat} (hi : i < 8) :
    readStore 0 (stagedCommand code tag mask m) (commandWordAt + i) =
      ([code, 0, tag] ++ leBytes 2 mask.toNat ++ zeros 3).getD i 0 := by
  have hmerged : ∀ j < 8, (255 : BitVec 8).getLsbD j = true ∧ hostWritten (commandWordAt + j) = true := by decide
  rw [stagedCommand, readStore_mergeBeat _ _ _ _ _ _ _ le_rfl hm, if_pos, Nat.add_sub_cancel_left]
  · exact byteOf_beatOf _ hi
  · rw [Nat.add_sub_cancel_left]
    exact ⟨by omega, by omega, hmerged i hi⟩

theorem stagedCode_stagedCommand (hm : wfStore 0 m = true) : stagedCode (stagedCommand code tag mask m) = code :=
  readStore_stagedCommand hm (i := 0) (by omega)

theorem stagedTag_stagedCommand (hm : wfStore 0 m = true) : stagedTag (stagedCommand code tag mask m) = tag :=
  readStore_stagedCommand hm (i := 2) (by omega)

end Staged

/-! ## The write before its command runs (R159, R160, R173) -/

/-- The state in which a command starts: its word staged, its write listed. -/
def commandWritten (code tag : Byte) (mask : BitVec 16) (s : State) : State :=
  { s with
    setup := { s.setup with staged := stagedCommand code tag mask s.setup.staged }
    path := { s.path with
      nextId := s.path.nextId + 1
      list := s.path.list ++
        [{ id := s.path.nextId, addr := setupBase s.setup.strap + commandWordAt,
           body := .write [commandBeat code tag mask], held := false, watch := watchNow s }] } }

section Written

variable (code tag : Byte) (mask : BitVec 16) (s : State)

@[simp] theorem commandWritten_ring : (commandWritten code tag mask s).ring = s.ring := rfl
@[simp] theorem commandWritten_staged :
    (commandWritten code tag mask s).setup.staged = stagedCommand code tag mask s.setup.staged := rfl
@[simp] theorem commandWritten_geometry : (commandWritten code tag mask s).setup.geometry = s.setup.geometry := rfl
@[simp] theorem commandWritten_command : (commandWritten code tag mask s).setup.command = s.setup.command := rfl
@[simp] theorem heldB_commandWritten : heldB (commandWritten code tag mask s) = heldB s := rfl

end Written

theorem regionOf_commandWord (s : State) :
    regionOf s (setupBase s.setup.strap + commandWordAt) = .setup commandWordAt := by
  rw [regionOf, if_pos (by simp only [commandWordAt, setupSize]; omega), Nat.add_sub_cancel_left]

/-- R160: line capture takes nothing of a write of the command word. -/
theorem captureWrite_commandWord (id : Nat) (b : Beat) (s : State) :
    captureWrite id (setupBase s.setup.strap + commandWordAt) [b] s =
      { st := s, rewrites := [], isHeld := false, strays := [] } := by
  simp [captureWrite, takeBeats, takeBeat, regionOf_commandWord]

/-- R172: the command word's only beat, merged whole. -/
theorem stageWrite_commandWord (code tag : Byte) (mask : BitVec 16) (s : State) :
    stageWrite (setupBase s.setup.strap + commandWordAt) [commandBeat code tag mask] s =
      { s with setup := { s.setup with staged := stagedCommand code tag mask s.setup.staged } } := by
  have hin : commandWordAt < setupSize := by decide
  simp [stageWrite, stageBeats, stagedCommand, hin]

theorem startsCommand_commandBeat (base : Nat) (code tag : Byte) (mask : BitVec 16) :
    startsCommand base (base + commandWordAt) [commandBeat code tag mask] = true := by
  simp [startsCommand, commandBeat]

theorem settleCommand_ready {s : State} (h : s.setup.command = .ready) : settleCommand s = s := by
  rw [settleCommand, h]

/-- R159: a write that is not withheld is taken at once, under the next transaction number. -/
theorem presentTxn_accepted (a : Nat) (beats : List Beat) {s : State} (h : Accepting s) :
    presentTxn a (.write beats) s =
      acceptWrite s.path.nextId a beats (modPath (fun p => { p with nextId := p.nextId + 1 }) s) := by
  obtain ⟨hline, hport, hroom⟩ := h
  simp [presentTxn, acceptTxn, hline, hport, hroom]

/-- R173: a command word accepted with no command in progress is staged and listed, and its command starts. -/
theorem writeCommand_accepted (code tag : Byte) (mask : BitVec 16) {s : State} (ha : Accepting s)
    (hr : s.setup.command = .ready) :
    writeCommand code tag mask s = startCommand (commandWritten code tag mask s) := by
  calc writeCommand code tag mask s
      = acceptWrite s.path.nextId (setupBase s.setup.strap + commandWordAt) [commandBeat code tag mask]
          (modPath (fun p => { p with nextId := p.nextId + 1 }) s) := presentTxn_accepted _ _ ha
    _ = startCommand (settleCommand (commandWritten code tag mask s)) := by
        rw [← modPath_setup s fun p => { p with nextId := p.nextId + 1 }]
        simp only [acceptWrite, captureWrite_commandWord, stageWrite_commandWord, startsCommand_commandBeat, if_true]
        rfl
    _ = startCommand (commandWritten code tag mask s) := by
        rw [settleCommand_ready ((commandWritten_command code tag mask s).trans hr)]

/-- R174: a taken command runs with the code and the tag that the host wrote. -/
theorem startCommand_commandWritten (code tag : Byte) (mask : BitVec 16) {s : State} (hr : s.setup.command = .ready)
    (hm : wfStore 0 s.setup.staged = true) :
    startCommand (commandWritten code tag mask s) =
      runCommand tag code (stagedMask (stagedCommand code tag mask s.setup.staged)) (commandWritten code tag mask s) := by
  simp only [startCommand, commandWritten_command, hr, commandWritten_staged, stagedCode_stagedCommand hm,
    stagedTag_stagedCommand hm]

/-! ## The end of a command (R174) -/

@[simp] theorem offerBlocks_status (s : State) : (offerBlocks s).status = s.status := by
  have hchans : ∀ (cs : List Chan) (t : State), (cs.foldl (fun u c => offerChannelBlock c u) t).status = t.status := by
    intro cs
    induction cs with
    | nil => exact fun _ => rfl
    | cons c cs ih => exact fun t => ih (offerChannelBlock c t)
  rw [offerBlocks, offerStatus_status, hchans]

/-- A command's end latches no condition and counts nothing. -/
@[simp] theorem endCommand_status (r : Running) (res : CommandResult) (check : Nat) (s : State) :
    (endCommand r res check s).status = s.status :=
  offerBlocks_status _

/-! ## A flush request (R139) -/

section Request

variable {s : State}

theorem ringBlocked_iff {r : Ring} : ringBlocked r = true ↔ ∃ i, r.fill = .blocked i := by
  cases h : r.fill <;> simp [ringBlocked, h]

/-- R139: records await release in the queue, or in a FILLING slot with 1 to B − 1 places assigned. -/
theorem recordsAwait_iff {b : Nat} {r : Ring} :
    recordsAwait b r = true ↔
      r.queue ≠ [] ∨ ∃ i, r.fill = .filling i ∧ 1 ≤ placesOf r i ∧ placesOf r i < b := by
  cases h : r.fill <;> simp [recordsAwait, h]

/-- R139: what keeps a flush request, spelt out. -/
theorem keepsFlush_iff {b : Nat} {r : Ring} :
    (ringBlocked r || recordsAwait b r) = true ↔
      (∃ i, r.fill = .blocked i) ∨
        r.queue ≠ [] ∨ ∃ i, r.fill = .filling i ∧ 1 ≤ placesOf r i ∧ placesOf r i < b := by
  rw [Bool.or_eq_true, ringBlocked_iff, recordsAwait_iff]

/-- R139, R143: a request that the ring writer takes is kept as the flag or discarded, and changes no more of the ring. -/
theorem requestFlush_ring (hw : s.ring.resetWait = false) :
    (requestFlush s).ring =
      if ringBlocked s.ring || recordsAwait (heldB s) s.ring then { s.ring with flushPending := true } else s.ring := by
  rw [requestFlush, requestFlushOn, if_neg (Bool.eq_false_iff.mp hw)]
  split <;> rfl

/-- A flush request changes the ring writer alone. -/
theorem requestFlush_modRing (s : State) : ∃ f, requestFlush s = modRing f s := by
  rcases requestFlush_cases s with h | h
  · exact ⟨id, h⟩
  · exact ⟨_, h⟩

end Request

/-! ## FLUSH (R181) -/

/-- FLUSH makes one request, on the ring as it stood, and ends. -/
theorem exec_flush (tag : Byte) (mask : BitVec 16) {s : State} (h : CommandTaken s) :
    exec (.flush tag mask) s = .next (runFlush tag 7 (commandWritten 7 tag mask s)) := by
  obtain ⟨ha, hr, hm, hg⟩ := h
  have hrun (k : BitVec 16) :
      runCommand tag 7 k (commandWritten 7 tag mask s) = runFlush tag 7 (commandWritten 7 tag mask s) := by
    rw [runCommand, commandWritten_geometry, if_neg (by decide), if_neg fun hnone => hg hnone.2]
    rfl
  calc exec (.flush tag mask) s
      = .next (writeCommand 7 tag mask s) := rfl
    _ = .next (runFlush tag 7 (commandWritten 7 tag mask s)) := by
        rw [writeCommand_accepted 7 tag mask ha hr, startCommand_commandWritten 7 tag mask hr hm, hrun]

/-- R181: FLUSH ends DONE, kept or discarded, and leaves every block but the ring writer and the outgoing writes. -/
theorem runFlush_rest (tag : Byte) (s : State) :
    (runFlush tag 7 s).chans = s.chans ∧ (runFlush tag 7 s).engine = s.engine ∧
      (runFlush tag 7 s).strands = s.strands ∧ (runFlush tag 7 s).status = s.status ∧
      (runFlush tag 7 s).setup.command = .ready ∧
      WordOffered 0x2000 (statusWord tag 7 1 0 0 0) (runFlush tag 7 s) := by
  obtain ⟨f, hf⟩ := requestFlush_modRing s
  have hend := endCommand_rest (newRunning tag 7) .done 0 (modRing f s)
  rw [runFlush, hf]
  exact ⟨hend.chans, hend.engine, hend.strands, endCommand_status _ _ _ _, congrArg Setup.command hend.setup,
    wordOffered_endCommand _ _ _ _⟩

theorem runFlush_ring (tag code : Byte) (s : State) : (runFlush tag code s).ring = (requestFlush s).ring :=
  (endCommand_rest (newRunning tag code) .done 0 (requestFlush s)).ring

/-- FLUSH's request finds the ring writer as it stood before the write of the command word. -/
theorem runFlush_commandWritten_ring (tag : Byte) (mask : BitVec 16) {s : State} (hw : s.ring.resetWait = false) :
    (runFlush tag 7 (commandWritten 7 tag mask s)).ring =
      if ringBlocked s.ring || recordsAwait (heldB s) s.ring then { s.ring with flushPending := true } else s.ring := by
  rw [runFlush_ring, requestFlush_ring, commandWritten_ring, heldB_commandWritten]
  exact hw

/-- Settles O42: the write of the command word leaves the ring as it stood, and R139 answers the one request. -/
theorem flushKeepsOrDiscardsTheRequest : Obligations.FlushKeepsOrDiscardsTheRequest := by
  intro tag mask s hs hw
  obtain ⟨hchans, hengine, hstrands, hstatus, hready, hword⟩ := runFlush_rest tag (commandWritten 7 tag mask s)
  have hring := runFlush_commandWritten_ring tag mask hw
  refine ⟨_, exec_flush tag mask hs, hchans, hengine, hstrands, hstatus, hready, hword,
    fun hkept => hring.trans (if_pos (keepsFlush_iff.mpr hkept)),
    fun hblocked hqueue hplaces => hring.trans (if_neg fun hkept => ?_)⟩
  rcases keepsFlush_iff.mp hkept with ⟨i, hi⟩ | hq | ⟨i, hi, hlo, hhi⟩
  · exact hblocked i hi
  · exact hq hqueue
  · have := hplaces i hi
    omega

end Sys2Proof.Machine
end

section
/-! The sound parts of a state (R84, R88, R130, R149, R164 to R166, R187): which changes of the outgoing write queue, the record
queue, a mark queue, a track table, a band tracker and a sparse store keep them. -/

namespace Sys2Proof.Machine

open Sys2Proof.Safety

/-! ## The outgoing write queue -/

/-- Soundness sees of the queue only the kinds and the addresses of its entries. -/
theorem outgoingSound_of_shape {p p' : Path} (hd : p'.deferred = p.deferred)
    (hq : p'.queue.map (fun e => (e.kind, e.addr)) = p.queue.map fun e => (e.kind, e.addr)) (h : OutgoingSound p) :
    OutgoingSound p' := by
  have hlen : p'.queue.length = p.queue.length := by simpa using congrArg List.length hq
  have hkinds (f : WriteKind → Bool) :
      (p'.queue.filter fun e => f e.kind).map OutEntry.addr = (p.queue.filter fun e => f e.kind).map OutEntry.addr := by
    have hf := congrArg (fun l => (l.filter fun x => f x.1).map Prod.snd) hq
    simpa [List.filter_map, Function.comp_def] using hf
  have hcount := congrArg List.length (hkinds fun k => decide (k ≠ .word))
  have haddr := hkinds fun k => decide (k ≠ .record)
  simp only [List.length_map] at hcount
  unfold OutgoingSound at h ⊢
  rw [hd, hlen, hcount, haddr]
  exact h

/-- No queued word or status write has an address that `sameAddress` finds nowhere. -/
theorem addr_not_mem_of_any {q : List OutEntry} {a : Nat} (h : q.any (sameAddress a) = false) :
    a ∉ (q.filter fun e => decide (e.kind ≠ .record)).map OutEntry.addr := by
  simp only [List.any_eq_false, sameAddress, Bool.and_eq_true, decide_eq_true_eq] at h
  simp only [List.mem_map, List.mem_filter, decide_eq_true_eq, not_exists, not_and]
  exact fun e he ha => h e he.1 ⟨he.2, ha⟩

/-- An entry of a new address may enter at the tail: a word with room for it, any other with fewer than 24 queued. -/
theorem outgoingSound_append {p : Path} (e : OutEntry) (h : OutgoingSound p) (hd : p.deferred = [])
    (ha : e.kind ≠ .record → p.queue.any (sameAddress e.addr) = false) (hlen : p.queue.length < 32)
    (hk : e.kind ≠ .word → p.queue.length < 24) : OutgoingSound { p with queue := p.queue ++ [e] } := by
  obtain ⟨-, hcount, hnodup, -, -⟩ := h
  have hle := List.length_filter_le (fun e : OutEntry => decide (e.kind ≠ .word)) p.queue
  simp only [hd, List.map_nil, List.append_nil] at hnodup
  refine ⟨by simp; omega, ?_, ?_, by simp [hd], .inl hd⟩
  · by_cases hw : e.kind = .word
    · simpa [List.filter_append, hw] using hcount
    · have := hk hw
      simp only [List.filter_append, List.length_append]
      have h1 : (List.filter (fun e : OutEntry => decide (e.kind ≠ .word)) [e]).length ≤ 1 := List.length_filter_le _ _
      omega
  · by_cases hr : e.kind = .record
    · simpa [List.filter_append, hr, hd] using hnodup
    · have hnew := addr_not_mem_of_any (ha hr)
      simp only [hd, List.filter_append, List.map_append, List.map_nil, List.append_nil]
      rw [List.filter_singleton, show decide (e.kind ≠ .record) = true from decide_eq_true hr, cond_true, List.map_singleton]
      exact List.nodup_append.mpr ⟨hnodup, List.nodup_singleton _, fun b hb c hc => by
        rw [List.mem_singleton.mp hc]; exact fun hbc => hnew (hbc ▸ hb)⟩

/-- The keys of a store with one more put. -/
theorem mem_keys_putStore {α : Type} (m : Store α) (k : Nat) (v : α) {j : Nat} (h : j ∈ (putStore m k v).map Prod.fst) :
    j = k ∨ j ∈ m.map Prod.fst := by
  induction m with
  | nil => simpa [putStore] using h
  | cons x rest ih =>
    obtain ⟨i, w⟩ := x
    unfold putStore at h
    split at h
    · simpa using h
    · split at h
      · next hi => simp only [List.map_cons, List.mem_cons] at h ⊢; tauto
      · simp only [List.map_cons, List.mem_cons] at h ⊢
        rcases h with h | h
        · exact .inr (.inl h)
        · exact (ih h).imp_right .inr

/-- A put keeps the keys rising. -/
theorem pairwise_keys_putStore {α : Type} (m : Store α) (k : Nat) (v : α)
    (h : (m.map Prod.fst).Pairwise fun a b => a < b) : ((putStore m k v).map Prod.fst).Pairwise fun a b => a < b := by
  induction m with
  | nil => simp [putStore]
  | cons x rest ih =>
    obtain ⟨i, w⟩ := x
    obtain ⟨hi, hrest⟩ := List.pairwise_cons.mp h
    unfold putStore
    split
    · next hk =>
      refine List.pairwise_cons.mpr ⟨fun b hb => ?_, h⟩
      rcases List.mem_cons.mp hb with rfl | hb
      · exact hk
      · exact hk.trans (hi b hb)
    · split
      · next hk => subst hk; exact h
      · refine List.pairwise_cons.mpr ⟨fun b hb => ?_, ih hrest⟩
        rcases mem_keys_putStore rest k v hb with rfl | hb
        · simp only; omega
        · exact hi b hb

theorem offerWordTo_sound (a : Nat) (d : List Byte) (p : Path) (h : OutgoingSound p) : OutgoingSound (offerWordTo a d p) := by
  rcases offerWordTo_cases a d p with ⟨e, -⟩ | ⟨e, hany, hlen⟩ | ⟨e, hany, hlen⟩ <;> rw [e]
  · exact outgoingSound_of_shape (p := p) rfl (replaceData_shape a d p.queue) h
  · have hd : p.deferred = [] := h.2.2.2.2.resolve_right (by omega)
    exact outgoingSound_append _ h hd (fun _ => hany) hlen (fun hk => absurd rfl hk)
  · obtain ⟨hlen', hcount, hnodup, hsorted, -⟩ := h
    have hsorted' := pairwise_keys_putStore p.deferred a d hsorted
    obtain ⟨hqueue, -, hapart⟩ := List.nodup_append.mp hnodup
    refine ⟨hlen', hcount, List.nodup_append.mpr ⟨hqueue, hsorted'.imp fun hab => hab.ne, fun b hb c hc hbc => ?_⟩, hsorted',
      .inr (by simp only; omega)⟩
    rcases mem_keys_putStore p.deferred a d hc with rfl | hc
    · exact addr_not_mem_of_any hany (hbc ▸ hb)
    · exact hapart b hb c hc hbc

theorem offerStatusTo_sound (a : Nat) (d : List Byte) (p : Path) (h : OutgoingSound p) :
    OutgoingSound (offerStatusTo a d p) := by
  rcases offerStatusTo_cases a d p with ⟨e, -⟩ | ⟨e, hany, hlen⟩ | ⟨e, -⟩ <;> rw [e]
  · exact outgoingSound_of_shape (p := p) rfl (replaceData_shape a d p.queue) h
  · have hd : p.deferred = [] := h.2.2.2.2.resolve_right (by omega)
    exact outgoingSound_append _ h hd (fun _ => hany) (by omega) (fun _ => hlen)
  · exact h

theorem putRecordWrite_sound (a : Nat) (d : List Byte) (p : Path) (ha : admitsRecord p = true) (h : OutgoingSound p) :
    OutgoingSound (putRecordWrite a d p) := by
  have hlen : p.queue.length < 24 := by simpa [admitsRecord] using ha
  have hd : p.deferred = [] := h.2.2.2.2.resolve_right (by omega)
  exact outgoingSound_append _ h hd (fun hk => absurd rfl hk) (by omega) (fun _ => hlen)

/-- What remains of the outgoing writes after the head is issued. -/
theorem outgoingSound_tail {p : Path} {e : OutEntry} {q : List OutEntry} (hq : p.queue = e :: q) (h : OutgoingSound p) :
    (q.filter fun e => decide (e.kind ≠ .word)).length ≤ 24 ∧
      ((q.filter fun e => decide (e.kind ≠ .record)).map OutEntry.addr ++ p.deferred.map Prod.fst).Nodup := by
  obtain ⟨-, hcount, hnodup, -, -⟩ := h
  rw [hq] at hcount hnodup
  have hsub : q.Sublist (e :: q) := List.sublist_cons_self e q
  exact ⟨(hsub.filter _).length_le.trans hcount, hnodup.sublist (((hsub.filter _).map _).append (.refl _))⟩

/-- The issue of the head keeps the queue sound: a deferred content takes the place that it leaves (R166). -/
theorem issuePartTo_sound (e : OutEntry) (p : Path) (hq : p.queue ≠ []) (h : OutgoingSound p) :
    OutgoingSound (issuePartTo e p) := by
  obtain ⟨x, q, hxq⟩ := List.exists_cons_of_ne_nil hq
  obtain ⟨hcount, hnodup⟩ := outgoingSound_tail hxq h
  obtain ⟨hlen, -, -, hsorted, hfull⟩ := h
  simp only [hxq, List.length_cons] at hlen hfull
  unfold issuePartTo enterDeferred
  simp only [hxq, List.drop_succ_cons, List.drop_zero]
  split
  · next hd =>
    exact ⟨by simp only; omega, hcount, by simpa [hd] using hnodup, by simp [hd], .inl hd⟩
  · next a d rest hd =>
    have hqlen : q.length = 31 := by
      rcases hfull with hfull | hfull
      · simp [hd] at hfull
      · omega
    rw [hd, List.map_cons] at hnodup hsorted
    refine ⟨by simp [hqlen], by simpa [List.filter_append] using hcount, ?_, (List.pairwise_cons.mp hsorted).2,
      .inr (by simp [hqlen])⟩
    simpa [List.filter_append] using hnodup

/-! ## The record queue -/

theorem recordsSound_append {r : Ring} (x : Record) (hlen : r.queue.length < 64) (h : RecordsSound r) :
    RecordsSound { r with queue := r.queue ++ [x] } := by
  obtain ⟨-, hloss⟩ := h
  refine ⟨by simp; omega, ?_⟩
  cases hl : r.loss with
  | none => trivial
  | some l =>
    rw [hl] at hloss
    exact absurd hloss.1 (by omega)

theorem recordsSound_extendLoss {r : Ring} (now : Word32) (hlen : 64 ≤ r.queue.length) (h : RecordsSound r) :
    RecordsSound { r with loss := some (extendLoss now r.loss) } := by
  obtain ⟨hle, hloss⟩ := h
  refine ⟨hle, by simp only; omega, ?_⟩
  cases hl : r.loss with
  | none => simp [extendLoss]
  | some l =>
    rw [hl] at hloss
    simp only [extendLoss, sat32]
    omega

/-- R132, R134: the placement of the head frees an entry, which the GAP record of an open loss episode takes. -/
theorem recordsSound_placedRing (now : Word32) (b i k : Nat) {r : Ring} (hq : r.queue ≠ []) (h : RecordsSound r) :
    RecordsSound (placedRing now b i k r) := by
  obtain ⟨hle, hloss⟩ := h
  have hpos := List.length_pos_of_ne_nil hq
  cases hl : r.loss with
  | none =>
    refine ⟨?_, ?_⟩
    · simp only [placedRing, gapTakes, hl, setSlot, List.length_drop]; omega
    · simp only [placedRing, gapTakes, hl, setSlot]
  | some l =>
    refine ⟨?_, ?_⟩
    · simp only [placedRing, gapTakes, hl, setSlot, List.length_append, List.length_drop, List.length_singleton]; omega
    · simp only [placedRing, gapTakes, hl, setSlot]

/-! ## A strand's mark queue -/

theorem withinMerge_comm (w : Nat) (t u : Word32) : withinMerge w t u = withinMerge w u t := by
  unfold withinMerge
  rw [Nat.min_comm]

/-- A narrower window keeps the entries apart. -/
theorem withinMerge_mono {w w' : Nat} {t u : Word32} (hw : w' ≤ w) (h : withinMerge w t u = false) :
    withinMerge w' t u = false := by
  simp only [withinMerge, decide_eq_false_iff_not] at h ⊢
  omega

/-- Fewer entries, the same window. -/
theorem marksSound_sublist {k k' : StrandState} (hq : k'.queue.Sublist k.queue) (hm : k'.merge = k.merge)
    (h : MarksSound k) : MarksSound k' := by
  obtain ⟨hlen, hapart⟩ := h
  refine ⟨hq.length_le.trans hlen, ?_⟩
  rw [hm]
  exact hapart.sublist hq

theorem marksSound_nil {k : StrandState} (h : k.queue = []) : MarksSound k := by
  simp [MarksSound, h]

theorem settleMerge_sound {k : StrandState} (h : MarksSound k) : MarksSound (settleMerge k) := by
  unfold settleMerge
  split
  · split
    · next he => exact marksSound_nil (by simpa using he)
    · exact h
  · exact h

theorem applyStrand_sound (p : StrandParams) {k : StrandState} (h : MarksSound k) : MarksSound (applyStrand p k) := by
  unfold applyStrand
  split
  · next hc =>
    rcases hc with hle | hnil
    · exact ⟨h.1, h.2.imp fun hab => withinMerge_mono hle hab⟩
    · exact marksSound_nil hnil
  · exact h

theorem countLine_sound (now count : Word32) {k : StrandState} (h : MarksSound k) : MarksSound (countLine now count k) :=
  settleMerge_sound (marksSound_sublist (k := k) List.filter_sublist rfl h)

theorem resetPartStrand_sound (k : StrandState) : MarksSound (resetPartStrand k) :=
  settleMerge_sound (marksSound_nil rfl)

/-- R148, R149: a SCHEDULED request finds room and no entry within the window. -/
theorem marksSound_insert {k : StrandState} (m : Mark) (hs : markAnswer k m.trigger = .scheduled) (h : MarksSound k) :
    MarksSound { k with queue := insertMark k.lastCount m k.queue } := by
  obtain ⟨-, hapart⟩ := h
  have hperm := insertMark_perm k.lastCount m k.queue
  unfold markAnswer at hs
  split at hs
  · cases hs
  · split at hs
    · cases hs
    · next hmerge =>
      split at hs
      · cases hs
      · next hroom =>
        refine ⟨by rw [hperm.length_eq, List.length_cons]; omega, ?_⟩
        refine (hperm.pairwise_iff fun {a b} hab => ?_).mpr (List.pairwise_cons.mpr ⟨fun a ha => ?_, hapart⟩)
        · rw [withinMerge_comm]; exact hab
        · rw [withinMerge_comm]
          simpa using fun hin => hmerge (List.any_eq_true.mpr ⟨a, ha, hin⟩)

/-! ## A track table -/

theorem matchTrack_id (l : LineRuns) (old : List Track) (t : Track) : (matchTrack l old t).id = t.id := by
  have hadd (rs : List Run) (u : Track) : (rs.foldl addRun u).id = u.id := by
    induction rs generalizing u with
    | nil => rfl
    | cons r rs ih => exact ih (addRun u r)
  simp only [matchTrack]
  split
  · rfl
  · exact hadd _ _

theorem map_id_matchTrack (l : LineRuns) (old ts : List Track) :
    (ts.map (matchTrack l old)).map Track.id = ts.map Track.id := by
  simp [matchTrack_id]

theorem tracksSound_nil : TracksSound [] := by simp [TracksSound]

theorem tracksSound_filter {ts : List Track} (f : Track → Bool) (h : TracksSound ts) : TracksSound (ts.filter f) := by
  obtain ⟨hlen, hrising, hbound⟩ := h
  exact ⟨(List.length_filter_le f ts).trans hlen, hrising.sublist (List.filter_sublist.map _),
    fun t ht => hbound t (List.mem_of_mem_filter ht)⟩

theorem tracksSound_match {ts : List Track} (l : LineRuns) (old : List Track) (h : TracksSound ts) :
    TracksSound (ts.map (matchTrack l old)) := by
  obtain ⟨hlen, hrising, hbound⟩ := h
  refine ⟨by simpa using hlen, by rw [map_id_matchTrack]; exact hrising, fun t ht => ?_⟩
  obtain ⟨u, hu, rfl⟩ := List.mem_map.mp ht
  rw [matchTrack_id]
  exact hbound u hu

theorem insertTrack_perm (t : Track) (ts : List Track) : (insertTrack t ts).Perm (t :: ts) := by
  induction ts with
  | nil => exact .refl _
  | cons x xs ih =>
    unfold insertTrack
    split
    · exact .refl _
    · exact (ih.cons x).trans (.swap t x xs)

theorem pairwise_insertTrack {t : Track} {ts : List Track} (hne : ∀ u ∈ ts, u.id ≠ t.id)
    (h : (ts.map Track.id).Pairwise fun a b => a < b) : ((insertTrack t ts).map Track.id).Pairwise fun a b => a < b := by
  rw [List.pairwise_map] at h ⊢
  induction ts with
  | nil => simp [insertTrack]
  | cons x xs ih =>
    obtain ⟨hx, hxs⟩ := List.pairwise_cons.mp h
    have hxt := hne x List.mem_cons_self
    unfold insertTrack
    split
    · next hlt =>
      refine List.pairwise_cons.mpr ⟨fun u hu => ?_, h⟩
      rcases List.mem_cons.mp hu with rfl | hu
      · exact hlt
      · exact hlt.trans (hx u hu)
    · refine List.pairwise_cons.mpr ⟨fun u hu => ?_, ih (fun u hu => hne u (List.mem_cons_of_mem x hu)) hxs⟩
      rcases List.mem_cons.mp ((insertTrack_perm t xs).mem_iff.mp hu) with rfl | hu
      · omega
      · exact hx u hu

/-- R100: the entry that an opening takes is FREE and in the table. -/
theorem lowestFree_spec {ts : List Track} {i : Nat} (h : lowestFree ts = some i) : i < 32 ∧ ∀ u ∈ ts, u.id ≠ i := by
  obtain ⟨hfree, hmem⟩ := And.intro (List.find?_some h) (List.mem_of_find?_eq_some h)
  exact ⟨List.mem_range.mp hmem, by simpa using hfree⟩

/-- Distinct IDs below 32 make at most 32 tracks. -/
theorem length_le_of_ids {ts : List Track} (hnodup : (ts.map Track.id).Nodup) (hbound : ∀ t ∈ ts, t.id < 32) :
    ts.length ≤ 32 := by
  have hsub : ts.map Track.id ⊆ List.range 32 := fun i hi => by
    obtain ⟨t, ht, rfl⟩ := List.mem_map.mp hi
    exact List.mem_range.mpr (hbound t ht)
  simpa using (hnodup.subperm hsub).length_le

theorem tracksSound_insert {ts : List Track} {t : Track} (hid : t.id < 32) (hne : ∀ u ∈ ts, u.id ≠ t.id)
    (h : TracksSound ts) : TracksSound (insertTrack t ts) := by
  obtain ⟨-, hrising, hbound⟩ := h
  have hrising' := pairwise_insertTrack hne hrising
  have hbound' : ∀ u ∈ insertTrack t ts, u.id < 32 := fun u hu => by
    rcases List.mem_cons.mp ((insertTrack_perm t ts).mem_iff.mp hu) with rfl | hu
    · exact hid
    · exact hbound u hu
  exact ⟨length_le_of_ids (hrising'.imp fun hab => hab.ne) hbound', hrising', hbound'⟩

theorem tracksSound_openRuns (l : LineRuns) (rs : List Run) {ts : List Track} (h : TracksSound ts) :
    TracksSound (openRuns l rs ts) := by
  induction rs generalizing ts with
  | nil => exact h
  | cons r rs ih =>
    unfold openRuns
    split
    · next i hi =>
      obtain ⟨hlt, hne⟩ := lowestFree_spec hi
      exact ih (tracksSound_insert hlt hne h)
    · exact h

/-! ## The effective pitch -/

/-- R84: what the band tracker computes lies within PMIN and PMAX wherever these stand in order. -/
theorem effectivePitch_bounds {p : ChanParams} (ring : List Nat) (h : p.pMin ≤ p.pMax) :
    p.pMin ≤ effectivePitch p ring ∧ effectivePitch p ring ≤ p.pMax := by
  unfold effectivePitch
  exact ⟨le_min h (le_max_left _ _), min_le_left _ _⟩

/-- A channel whose bounds are in order and whose effective pitch is R84's is sound. -/
theorem pitchSound_of_eq {ch : Channel} (hring : ch.band.pitchRing.length ≤ 8)
    (heff : ch.band.effPitch = effectivePitch ch.params.chan ch.band.pitchRing)
    (hp : ch.params.chan.pMin ≤ ch.params.chan.pMax)
    (hw : ∀ p, ch.waiting = some p → p.chan.pMin ≤ p.chan.pMax) : PitchSound ch := by
  have hb := effectivePitch_bounds ch.band.pitchRing hp
  refine ⟨hring, heff, heff ▸ hb.1, heff ▸ hb.2, ?_⟩
  split
  · trivial
  · next p hpw => exact hw p hpw

/-- What a sound channel gives: its ring, its bounds, and those of a waiting set. -/
theorem pitchSound_parts {ch : Channel} (h : PitchSound ch) :
    ch.band.pitchRing.length ≤ 8 ∧ ch.params.chan.pMin ≤ ch.params.chan.pMax ∧
      ∀ p, ch.waiting = some p → p.chan.pMin ≤ p.chan.pMax := by
  obtain ⟨hring, -, hlo, hhi, hw⟩ := h
  refine ⟨hring, hlo.trans hhi, fun p hp => ?_⟩
  rw [hp] at hw
  exact hw

theorem length_insertSample (x : Nat) {ring : List Nat} (h : ring.length ≤ 8) : (insertSample x ring).length ≤ 8 := by
  unfold insertSample
  split <;> simp <;> omega

/-- R177: clamping puts PMIN and PMAX in order. -/
theorem clampChan_pitchBounds (w : Nat) (p : ChanParams) : (clampChan w p).pMin ≤ (clampChan w p).pMax :=
  le_max_left _ _

/-! ## The attention summary -/

/-- R187: the summary is a function of the latched sets and the mask alone. -/
theorem attentionOf_congr {a b : Status} (hw : ∀ o, (condWordOf a o).latched = (condWordOf b o).latched)
    (hc : a.maskChan = b.maskChan) (hp : a.maskPart = b.maskPart) : attentionOf a = attentionOf b := by
  unfold attentionOf
  refine congrArg (fun l : List Nat => BitVec.ofNat 17 l.sum) (List.map_congr_left fun o _ => ?_)
  have hflag : attentionFlag a o = attentionFlag b o := by
    cases o with
    | chan c => simp only [attentionFlag, show (a.words.get c).latched = (b.words.get c).latched from hw (.chan c), hc]
    | part => simp only [attentionFlag, show a.part.latched = b.part.latched from hw .part, hp]
  rw [hflag]

theorem attentionSound_congr {a b : Status} (hw : ∀ o, (condWordOf b o).latched = (condWordOf a o).latched)
    (hc : b.maskChan = a.maskChan) (hp : b.maskPart = a.maskPart) (hs : b.summary = a.summary) (h : AttentionSound a) :
    AttentionSound b := by
  unfold AttentionSound at h ⊢
  rw [hs, h, attentionOf_congr hw hc hp]

/-- With every latched set empty the summary is 0, whatever the mask. -/
theorem attentionOf_empty {st : Status} (h : ∀ o, (condWordOf st o).latched = 0) : attentionOf st = 0 := by
  have hflag (o : Owner) : attentionFlag st o = false := by
    cases o with
    | chan c => simp [attentionFlag, show (st.words.get c).latched = 0 from h (.chan c)]
    | part => simp [attentionFlag, show st.part.latched = 0 from h .part]
  unfold attentionOf
  simp [hflag, flagAt]

/-! ## The stores of a channel -/

/-- The stores of one channel are canonical. -/
abbrev ChanStores (ch : Channel) : Prop :=
  wfStore 0 ch.capture.e0.buffer = true ∧ wfStore 0 ch.capture.e1.buffer = true ∧ wfStore (0, 0) ch.background = true

/-- The line buffers of a channel's capture entries are canonical. -/
abbrev BuffersCanonical (k : Capture) : Prop := ∀ e : Fin 2, wfStore 0 (entryOf k e).buffer = true

theorem chanStores_iff {ch : Channel} :
    ChanStores ch ↔ BuffersCanonical ch.capture ∧ wfStore (0, 0) ch.background = true := by
  constructor
  · rintro ⟨h0, h1, hb⟩
    exact ⟨fun e => match e with | 0 => h0 | 1 => h1, hb⟩
  · rintro ⟨h, hb⟩
    exact ⟨h 0, h 1, hb⟩

theorem buffersCanonical_setEntry {k : Capture} (e : Fin 2) {v : Entry} (hv : wfStore 0 v.buffer = true)
    (h : BuffersCanonical k) : BuffersCanonical (setEntry k e v) := by
  intro d
  by_cases hd : d = e
  · subst hd; rw [entryOf_setEntry_same]; exact hv
  · rw [entryOf_setEntry_other k v hd]; exact h d

theorem buffersCanonical_empty : BuffersCanonical Capture.empty := by decide

theorem wfStore_mergeInto (i : Nat) (b : Beat) {e : Entry} (h : wfStore 0 e.buffer = true) :
    wfStore 0 (mergeInto i b e).buffer = true :=
  wfStore_mergeBeat _ _ _ _ _ _ h

theorem wfStore_stageBeats (base a : Nat) (bs : List Beat) (m : Store Byte) (h : wfStore 0 m = true) :
    wfStore 0 (stageBeats base a bs m) = true := by
  induction bs generalizing a m with
  | nil => exact h
  | cons b bs ih =>
    refine ih _ _ ?_
    split
    · exact wfStore_mergeBeat _ _ _ _ _ _ h
    · exact h

theorem wfStore_analyse (role : Role) (w : Nat) (q : ChanParams) (pix : Nat → Nat) (bg : Store (Nat × Nat))
    (h : wfStore (0, 0) bg = true) : wfStore (0, 0) (analyse role w q pix bg).background = true := by
  have hupd (pair : Column → Nat × Nat) : wfStore (0, 0) (updatedBackground w q pix bg pair) = true :=
    wfStore_storeOfFn (0, 0) _ w
  cases role with
  | seed => exact hupd _
  | warmup =>
    simp only [analyse, analyseWarmup]
    split
    · exact h
    · exact hupd _
  | ordinary =>
    simp only [analyse, analyseOrdinary]
    split
    · exact h
    · exact hupd _

end Sys2Proof.Machine
end

section
/-! What every operation of the part keeps: the queue of commands, the clock, the pins and the held geometry, and the sound parts of
the state. -/

namespace Sys2Proof

theorem Bank4.set_set {α : Type} (b : Bank4 α) (i : Fin 4) (v w : α) : (b.set i v).set i w = b.set i w := by
  match i with
  | 0 | 1 | 2 | 3 => rfl

theorem Bank16.set_set {α : Type} (b : Bank16 α) (c : Chan) (v w : α) : (b.set c v).set c w = b.set c w := by
  simp only [Bank16.set, Bank4.get_set_same, Bank4.set_set]

end Sys2Proof

namespace Sys2Proof.Machine

open Sys2Proof.Safety

/-- Two changes of one channel, one after the other, are one change. -/
theorem modChan_modChan (c : Chan) (f g : Channel → Channel) (s : State) :
    modChan c g (modChan c f s) = modChan c (fun ch => g (f ch)) s := by
  unfold modChan
  rw [chan_setChan_same]
  simp only [setChan, Bank16.set_set]

/-! ## The relation -/

/-- From channel state `a` to `b` its table, its pitch and its stores stay sound. -/
structure ChanKept (a b : Channel) : Prop where
  tracks : TracksSound a.tracks → TracksSound b.tracks
  pitch : PitchSound a → PitchSound b
  stores : ChanStores a → ChanStores b

theorem ChanKept.refl (a : Channel) : ChanKept a a := ⟨id, id, id⟩

theorem ChanKept.trans {a b d : Channel} (h : ChanKept a b) (k : ChanKept b d) : ChanKept a d :=
  ⟨k.tracks ∘ h.tracks, k.pitch ∘ h.pitch, k.stores ∘ h.stores⟩

/-- From `s` to `t` what is sound stays sound, each part on its own. -/
structure KeepsSound (s t : State) : Prop where
  outgoing : OutgoingSound s.path → OutgoingSound t.path
  records : RecordsSound s.ring → RecordsSound t.ring
  marks : ∀ k, MarksSound (s.strands.get k) → MarksSound (t.strands.get k)
  chans : ∀ c, ChanKept (s.chan c) (t.chan c)
  attention : AttentionSound s.status → AttentionSound t.status
  staged : wfStore 0 s.setup.staged = true → wfStore 0 t.setup.staged = true

/-- From `s` to `t` the queue of commands, the clock, the pins and the held geometry stand, and what is sound stays sound. -/
structure Kept (s t : State) : Prop extends KeepsSound s t where
  pending : t.pending = s.pending
  us : t.us = s.us
  ms : t.ms = s.ms
  usInMs : t.usInMs = s.usInMs
  resetLine : t.resetLine = s.resetLine
  mfIn : t.mfIn = s.mfIn
  strap : t.setup.strap = s.setup.strap
  geometry : ∀ g, s.setup.geometry = some g → t.setup.geometry = some g

theorem KeepsSound.refl (s : State) : KeepsSound s s := ⟨id, id, fun _ => id, fun _ => .refl _, id, id⟩

theorem KeepsSound.trans {s t u : State} (h : KeepsSound s t) (k : KeepsSound t u) : KeepsSound s u where
  outgoing := k.outgoing ∘ h.outgoing
  records := k.records ∘ h.records
  marks i := k.marks i ∘ h.marks i
  chans c := (h.chans c).trans (k.chans c)
  attention := k.attention ∘ h.attention
  staged := k.staged ∘ h.staged

theorem Kept.refl (s : State) : Kept s s := ⟨.refl s, rfl, rfl, rfl, rfl, rfl, rfl, rfl, fun _ => id⟩

theorem Kept.trans {s t u : State} (h : Kept s t) (k : Kept t u) : Kept s u where
  toKeepsSound := h.toKeepsSound.trans k.toKeepsSound
  pending := k.pending.trans h.pending
  us := k.us.trans h.us
  ms := k.ms.trans h.ms
  usInMs := k.usInMs.trans h.usInMs
  resetLine := k.resetLine.trans h.resetLine
  mfIn := k.mfIn.trans h.mfIn
  strap := k.strap.trans h.strap
  geometry g hg := k.geometry g (h.geometry g hg)

theorem kept_foldl {α : Type} (f : State → α → State) (hf : ∀ s x, Kept s (f s x)) (xs : List α) (s : State) :
    Kept s (xs.foldl f s) := by
  induction xs generalizing s with
  | nil => exact .refl s
  | cons x xs ih => exact (hf s x).trans (ih _)

/-! ## Changes of one block -/

section Updates

variable {s : State}

theorem modChan_kept (c : Chan) {f : Channel → Channel} (h : ChanKept (s.chan c) (f (s.chan c))) : Kept s (modChan c f s) := by
  refine ⟨⟨id, id, fun _ => id, fun d => ?_, id, id⟩, rfl, rfl, rfl, rfl, rfl, rfl, rfl, fun _ => id⟩
  by_cases hd : d = c
  · subst hd; rw [chan_modChan_same]; exact h
  · rw [chan_modChan_other s f hd]; exact .refl _

theorem modRing_kept {f : Ring → Ring} (h : RecordsSound s.ring → RecordsSound (f s.ring)) : Kept s (modRing f s) :=
  ⟨⟨id, h, fun _ => id, fun _ => .refl _, id, id⟩, rfl, rfl, rfl, rfl, rfl, rfl, rfl, fun _ => id⟩

theorem modPath_kept {f : Path → Path} (h : OutgoingSound s.path → OutgoingSound (f s.path)) : Kept s (modPath f s) :=
  ⟨⟨h, id, fun _ => id, fun _ => .refl _, id, id⟩, rfl, rfl, rfl, rfl, rfl, rfl, rfl, fun _ => id⟩

theorem modStatus_kept {f : Status → Status} (h : AttentionSound s.status → AttentionSound (f s.status)) :
    Kept s (modStatus f s) :=
  ⟨⟨id, id, fun _ => id, fun _ => .refl _, h, id⟩, rfl, rfl, rfl, rfl, rfl, rfl, rfl, fun _ => id⟩

theorem modStrand_kept (k : Strand) {f : StrandState → StrandState}
    (h : MarksSound (s.strands.get k) → MarksSound (f (s.strands.get k))) : Kept s (modStrand k f s) := by
  refine ⟨⟨id, id, fun j => ?_, fun _ => .refl _, id, id⟩, rfl, rfl, rfl, rfl, rfl, rfl, rfl, fun _ => id⟩
  by_cases hj : j = k
  · subst hj; rw [modStrand_strands, Bank4.get_set_same]; exact h
  · rw [modStrand_strands, Bank4.get_set_other _ _ hj]; exact id

theorem setUnrouted_kept (u : Option Nat) : Kept s { s with unrouted := u } :=
  ⟨⟨id, id, fun _ => id, fun _ => .refl _, id, id⟩, rfl, rfl, rfl, rfl, rfl, rfl, rfl, fun _ => id⟩

theorem setEngine_kept (e : Engine) : Kept s { s with engine := e } :=
  ⟨⟨id, id, fun _ => id, fun _ => .refl _, id, id⟩, rfl, rfl, rfl, rfl, rfl, rfl, rfl, fun _ => id⟩

theorem setFreeCount_kept (n : Nat) : Kept s { s with freeCount := n } :=
  ⟨⟨id, id, fun _ => id, fun _ => .refl _, id, id⟩, rfl, rfl, rfl, rfl, rfl, rfl, rfl, fun _ => id⟩

theorem setCommand_kept (k : CommandState) : Kept s (setCommand k s) :=
  ⟨⟨id, id, fun _ => id, fun _ => .refl _, id, id⟩, rfl, rfl, rfl, rfl, rfl, rfl, rfl, fun _ => id⟩

theorem setStaged_kept {m : Store Byte} (h : wfStore 0 s.setup.staged = true → wfStore 0 m = true) :
    Kept s { s with setup := { s.setup with staged := m } } :=
  ⟨⟨id, id, fun _ => id, fun _ => .refl _, id, h⟩, rfl, rfl, rfl, rfl, rfl, rfl, rfl, fun _ => id⟩

/-! ## Changes inside a channel -/

theorem modRecord_kept (c : Chan) (f : ChanRecord → ChanRecord) : Kept s (modRecord c f s) := modChan_kept c ⟨id, id, id⟩

theorem modTallies_kept (c : Chan) (f : Tallies → Tallies) : Kept s (modTallies c f s) := modRecord_kept c _

/-- A change of capture state that leaves the line buffers canonical. -/
theorem modCapture_kept (c : Chan) {f : Capture → Capture}
    (h : BuffersCanonical (s.chan c).capture → BuffersCanonical (f (s.chan c).capture)) : Kept s (modCapture c f s) :=
  modChan_kept c ⟨id, id, fun hs => chanStores_iff.mpr ((chanStores_iff.mp hs).imp_left h)⟩

/-- A change of the band tracker that leaves its ring and its effective pitch. -/
theorem modBand_kept (c : Chan) {f : Band → Band} (hr : (f (s.chan c).band).pitchRing = (s.chan c).band.pitchRing)
    (he : (f (s.chan c).band).effPitch = (s.chan c).band.effPitch) : Kept s (modBand c f s) := by
  refine modChan_kept c ⟨id, fun hp => ?_, id⟩
  obtain ⟨hring, heff, hlo, hhi, hw⟩ := hp
  exact ⟨by rw [hr]; exact hring, by rw [hr, he]; exact heff, by rw [he]; exact hlo, by rw [he]; exact hhi, hw⟩

/-- A change of ring and parameters followed by R85's recomputation of the effective pitch. -/
theorem recomputePitch_modChan_kept (c : Chan) {f : Channel → Channel}
    (ht : TracksSound (s.chan c).tracks → TracksSound (f (s.chan c)).tracks)
    (hs : ChanStores (s.chan c) → ChanStores (f (s.chan c)))
    (hp : PitchSound (s.chan c) →
      (f (s.chan c)).band.pitchRing.length ≤ 8 ∧ (f (s.chan c)).params.chan.pMin ≤ (f (s.chan c)).params.chan.pMax ∧
        ∀ p, (f (s.chan c)).waiting = some p → p.chan.pMin ≤ p.chan.pMax) :
    Kept s (recomputePitch c (modChan c f s)) := by
  unfold recomputePitch
  rw [modChan_modChan]
  refine modChan_kept c ⟨ht, fun h => ?_, hs⟩
  obtain ⟨hring, hpm, hw⟩ := hp h
  exact pitchSound_of_eq hring rfl hpm hw

theorem modCounters_kept (c : Chan) (f : ChanCounters → ChanCounters) : Kept s (modCounters c f s) :=
  modStatus_kept (attentionSound_congr (fun o => by cases o <;> rfl) rfl rfl rfl)

theorem modPartCounters_kept (f : PartCounters → PartCounters) : Kept s (modPartCounters f s) :=
  modStatus_kept (attentionSound_congr (fun o => by cases o <;> rfl) rfl rfl rfl)

end Updates

/-! ## Offers, conditions and records -/

theorem offerWord_kept (o : Nat) (d : List Byte) (s : State) : Kept s (offerWord o d s) :=
  modPath_kept (offerWordTo_sound _ d s.path)

theorem offerStatus_kept (o : Nat) (d : List Byte) (s : State) : Kept s (offerStatus o d s) :=
  modPath_kept (offerStatusTo_sound _ d s.path)

/-- Whatever the status unit has become, R187's refresh leaves its summary sound. -/
theorem refreshAttention_modStatus_kept (f : Status → Status) (s : State) : Kept s (refreshAttention (modStatus f s)) := by
  unfold refreshAttention
  split
  · next h => exact modStatus_kept fun _ => h.symm
  · exact (modStatus_kept (f := fun st => { f st with summary := attentionOf (f st) }) fun _ =>
      (attentionOf_summary (f s.status) _).symm).trans (offerWord_kept _ _ _)

theorem setLatched_kept (o : Owner) (v : BitVec 16) (s : State) : Kept s (setLatched o v s) := by
  unfold setLatched
  split
  · exact .refl s
  · exact (offerWord_kept _ _ s).trans (refreshAttention_modStatus_kept (fun st => setCondWord o { condWordOf st o with latched := v } st) _)

theorem latchChan_kept (c : Chan) (k : ChanCond) (s : State) : Kept s (latchChan c k s) := setLatched_kept _ _ s

theorem latchPart_kept (k : PartCond) (s : State) : Kept s (latchPart k s) := setLatched_kept _ _ s

theorem produce_kept (r : Record) (s : State) : Kept s (produce r s) := by
  unfold produce
  split
  · next h => exact modRing_kept (recordsSound_append r h)
  · next h =>
    have hlatched := (modPartCounters_kept (s := s) fun k => { k with recordsLost := sat16 (k.recordsLost + 1) }).trans
      (latchPart_kept .recordsLost _)
    refine hlatched.trans (modRing_kept fun hr => ?_)
    refine recordsSound_extendLoss s.ms ?_ hr
    rw [(latchPart_offersOnly _ _).ring, modPartCounters_ring]
    omega

theorem requestFlushOn_kept (r : Ring) (s : State) : Kept s (requestFlushOn r s) := by
  rcases requestFlushOn_cases r s with h | h <;> rw [h]
  · exact .refl s
  · exact modRing_kept id

theorem requestFlush_kept (s : State) : Kept s (requestFlush s) := requestFlushOn_kept s.ring s

theorem releaseTrailer_kept (c : Chan) (h : HeldTrailer) (w : Word64) (s : State) : Kept s (releaseTrailer c h w s) :=
  (modPath_kept (f := releaseTxn h.txn (rewriteBody h.beat w)) id).trans (modChan_kept c ⟨id, id, id⟩)

theorem dropCapture_kept (c : Chan) (s : State) : Kept s (dropCapture c s) :=
  (kept_foldl _ (fun t h => releaseTrailer_kept c h _ t) _ s).trans (modCapture_kept c fun _ => buffersCanonical_empty)

/-! ## Marks and closures -/

theorem requestMark_kept (c : Chan) (trigger : Word32) (s : State) : Kept s (requestMark c trigger s) := by
  unfold requestMark
  split
  · exact (modPartCounters_kept _).trans (latchPart_kept _ _)
  · exact (modPartCounters_kept _).trans (latchPart_kept _ _)
  · next h => exact modStrand_kept (strandOf c) (marksSound_insert (newMark s.ms _ c trigger) h)
  all_goals exact .refl s

theorem requestFor_kept (c : Chan) (set : ParamSet) (e : Profile) (k : Closure) (s : State) :
    Kept s (requestFor c set e k s) := by
  unfold requestFor
  split
  · split
    · exact requestMark_kept c _ s
    · exact .refl s
  · exact .refl s

theorem classify_kept (c : Chan) (set : ParamSet) (k : Closure) (s : State) : Kept s (classify c set k s) := by
  unfold classify
  split
  · exact ((modRecord_kept c _).trans (requestFor_kept c set _ k _)).trans (produce_kept _ _)
  · exact (modCounters_kept c _).trans (modTallies_kept c _)

theorem classifyTracks_kept (c : Chan) (set : ParamSet) (cause : Cause) (ts : List Track) (s : State) :
    Kept s (classifyTracks c set cause ts s) :=
  kept_foldl _ (fun u t => classify_kept c set (trackClosure cause t) u) ts s

theorem setTracks_kept (c : Chan) {ts : List Track} {s : State} (h : TracksSound (s.chan c).tracks → TracksSound ts) :
    Kept s (setTracks c ts s) :=
  modChan_kept c ⟨h, id, id⟩

theorem closeTracks_kept (c : Chan) (cause : Cause) (s : State) : Kept s (closeTracks c cause s) :=
  (setTracks_kept c fun _ => tracksSound_nil).trans (classifyTracks_kept c _ cause _ _)

/-! ## The band tracker -/

theorem clearPitchRing_kept (c : Chan) (s : State) : Kept s (clearPitchRing c s) :=
  recomputePitch_modChan_kept c id id fun h => ⟨Nat.zero_le 8, (pitchSound_parts h).2⟩

theorem acceptMark_kept (c : Chan) (centre sample : Nat) (s : State) : Kept s (acceptMark c centre sample s) :=
  (recomputePitch_modChan_kept c id id fun h => ⟨length_insertSample sample (pitchSound_parts h).1, (pitchSound_parts h).2⟩).trans (modTallies_kept c _)

theorem handCandidate_kept (c : Chan) (set : ParamSet) (k : Closure) (s : State) : Kept s (handCandidate c set k s) :=
  (modTallies_kept c _).trans (classify_kept c set k _)

theorem testEpisode_kept (c : Chan) (set : ParamSet) (e : Episode) (cause : Cause) (s : State) :
    Kept s (testEpisode c set e cause s) := by
  unfold testEpisode
  simp only
  split
  · exact (modBand_kept c rfl rfl).trans (modTallies_kept c _)
  · split
    · exact acceptMark_kept c _ _ s
    · exact handCandidate_kept c set _ s

theorem dropEpisode_kept (c : Chan) (s : State) : Kept s (dropEpisode c s) := modBand_kept c rfl rfl

theorem closeEpisode_kept (c : Chan) (set : ParamSet) (cause : Cause) (s : State) : Kept s (closeEpisode c set cause s) := by
  unfold closeEpisode
  simp only
  split
  · exact .refl s
  all_goals exact (dropEpisode_kept c s).trans (testEpisode_kept c set _ cause _)

theorem keepOrCloseLong_kept (c : Chan) (set : ParamSet) (e : Episode) (s : State) : Kept s (keepOrCloseLong c set e s) := by
  unfold keepOrCloseLong
  split
  · exact (dropEpisode_kept c s).trans (handCandidate_kept c set _ _)
  · exact modBand_kept c rfl rfl

theorem takeBandOutcome_kept (c : Chan) (set : ParamSet) (count : Word32) (pos : Nat) (d : Option DarkSummary) (s : State) :
    Kept s (takeBandOutcome c set count pos d s) := by
  unfold takeBandOutcome
  simp only
  split
  · split
    · exact modBand_kept c rfl rfl
    all_goals exact keepOrCloseLong_kept c set _ s
  · split
    · exact .refl s
    · exact modBand_kept c rfl rfl
    · exact closeEpisode_kept c set _ s

theorem blindEpisode_kept (c : Chan) (s : State) : Kept s (blindEpisode c s) :=
  (closeEpisode_kept c _ _ s).trans (modBand_kept c rfl rfl)

/-! ## The track table -/

theorem countLostRuns_kept (c : Chan) (n : Nat) (s : State) : Kept s (countLostRuns c n s) := by
  unfold countLostRuns
  split
  · exact .refl s
  · exact (modCounters_kept c _).trans (latchChan_kept c _ _)

theorem takeLine_kept (c : Chan) (set : ParamSet) (l : LineRuns) (s : State) : Kept s (takeLine c set l s) :=
  ((setTracks_kept c fun h => tracksSound_openRuns l _ (tracksSound_filter _ (tracksSound_match l _ h))).trans
    (classifyTracks_kept c set _ _ _)).trans (countLostRuns_kept c _ _)

/-! ## The channel unit -/

theorem switchParams_kept (c : Chan) (s : State) : Kept s (switchParams c s) := by
  unfold switchParams
  split
  · next p hp => exact recomputePitch_modChan_kept c id id fun h => ⟨(pitchSound_parts h).1, (pitchSound_parts h).2.2 p hp, fun q hq => nomatch hq⟩
  · exact .refl s

theorem switchInspecting_kept (c : Chan) (s : State) : Kept s (switchInspecting c s) := by
  unfold switchInspecting
  split
  · exact switchParams_kept c s
  all_goals exact .refl s

theorem closeAll_kept (c : Chan) (cause : Cause) (s : State) : Kept s (closeAll c cause s) :=
  (closeTracks_kept c cause s).trans (closeEpisode_kept c _ cause _)

theorem endBillet_kept (c : Chan) (cause : Cause) (ending : BilletEnd) (s : State) : Kept s (endBillet c cause ending s) :=
  (closeAll_kept c cause s).trans (produce_kept _ _)

theorem billetTail_kept (c : Chan) (s : State) : Kept s (billetTail c s) := by
  have hend := (modRecord_kept (s := s) c (settleRecord .waiting)).trans (endBillet_kept c .tail .tail _)
  unfold billetTail
  simp only
  split
  · exact hend.trans (requestFlush_kept _)
  · exact hend

theorem abandonBillet_kept (c : Chan) (s : State) : Kept s (abandonBillet c s) :=
  ((modRecord_kept c _).trans (endBillet_kept c _ _ _)).trans (latchChan_kept c _ _)

theorem billetHead_kept (c : Chan) (e : Fin 2) (s : State) : Kept s (billetHead c e s) := by
  refine modChan_kept c ⟨id, id, fun h => ?_⟩
  obtain ⟨hbuf, hbg⟩ := chanStores_iff.mp h
  exact chanStores_iff.mpr ⟨buffersCanonical_setEntry e (hbuf e) hbuf, hbg⟩

theorem blindTest_kept (c : Chan) (s : State) : Kept s (blindTest c s) := by
  unfold blindTest
  split
  · exact ((closeTracks_kept c _ s).trans (blindEpisode_kept c _)).trans (modCapture_kept c id)
  · exact .refl s

theorem addUnseen_kept (c : Chan) (n : Nat) (s : State) : Kept s (addUnseen c n s) := by
  have hadded := (modCapture_kept (s := s) c (f := fun k => { k with unseenRun := sat16 (k.unseenRun + n) }) id).trans
    (modCounters_kept c fun k => { k with unseen := sat16 (k.unseen + n) })
  unfold addUnseen
  simp only
  split
  · exact hadded.trans (modTallies_kept c _)
  · exact hadded

theorem placeUnseen_kept (c : Chan) (s : State) : Kept s (placeUnseen c s) := by
  unfold placeUnseen
  split
  · next e _ => exact modCapture_kept c fun h => buffersCanonical_setEntry e (h e) h
  · exact (addUnseen_kept c 1 s).trans (blindTest_kept c _)

theorem clearRun_kept (c : Chan) (k : Seen) (s : State) : Kept s (clearRun c k s) := by
  unfold clearRun
  split
  · exact modCapture_kept c id
  · exact .refl s
  · exact .refl s

theorem retire_kept (c : Chan) (e : Fin 2) (k : Seen) (s : State) : Kept s (retire c e k s) :=
  (((clearRun_kept c k s).trans (addUnseen_kept c _ _)).trans (blindTest_kept c _)).trans
    (modCapture_kept c fun h => buffersCanonical_setEntry e rfl h)

theorem actOnHead_kept (c : Chan) (e : Fin 2) (k : LineClass) (s : State) : Kept s (actOnHead c e k s) := by
  cases k <;> simp only [actOnHead]
  case noBillet =>
    split
    · exact (switchInspecting_kept c s).trans (billetTail_kept c _)
    · exact .refl s
  case toAnalyse =>
    split
    · exact billetHead_kept c e s
    · exact .refl s
  all_goals exact switchInspecting_kept c s

theorem serveHead_kept (c : Chan) (n : Nat) (s : State) : Kept s (serveHead c n s) := by
  induction n generalizing s with
  | zero => exact .refl s
  | succ n ih =>
    unfold serveHead
    split
    · exact .refl s
    · split
      · exact .refl s
      · exact actOnHead_kept c _ _ s
      · exact ((actOnHead_kept c _ _ s).trans (retire_kept c _ _ _)).trans (ih _)

/-! ## Commands at the channel -/

theorem removeMarks_kept (c : Chan) (s : State) : Kept s (removeMarks c s) := by
  unfold removeMarks
  exact (modStrand_kept (s := s) (strandOf c)
    (f := fun k => settleMerge { k with queue := k.queue.filter fun m => decide (m.chan ≠ c) })
    fun h => settleMerge_sound (marksSound_sublist List.filter_sublist rfl h)).trans (modPartCounters_kept _)

theorem startChannel_kept (c : Chan) (m : Mode) (s : State) : Kept s (startChannel c m s) :=
  ((modRecord_kept c _).trans (modCounters_kept c _)).trans (clearPitchRing_kept c _)

theorem teardown_kept (c : Chan) (st : ChanState) (s : State) : Kept s (teardown c st s) := by
  have hrecords : Kept s (teardownRecords c s) := by
    unfold teardownRecords
    split
    · exact endBillet_kept c _ _ s
    · exact closeAll_kept c _ s
  exact ((hrecords.trans (dropCapture_kept c _)).trans (removeMarks_kept c _)).trans (modRecord_kept c _)

theorem stopChannel_kept (c : Chan) (s : State) : Kept s (stopChannel c s) := by
  unfold stopChannel
  split
  · exact .refl s
  · exact modRecord_kept c _
  all_goals exact teardown_kept c _ s

theorem isolateChannel_kept (c : Chan) (s : State) : Kept s (isolateChannel c s) := by
  unfold isolateChannel
  split
  · exact .refl s
  all_goals exact teardown_kept c _ s

theorem dropWork_kept (c : Chan) (s : State) : Kept s (modChan c dropWork s) :=
  modChan_kept c ⟨fun _ => tracksSound_nil, id, fun h => ⟨h.1, h.2.1, rfl⟩⟩

theorem restartChannel_kept (c : Chan) (s : State) : Kept s (restartChannel c s) :=
  (((((dropWork_kept c s).trans (clearPitchRing_kept c _)).trans (dropCapture_kept c _)).trans (removeMarks_kept c _)).trans
    (modCounters_kept c _)).trans (modRecord_kept c _)

theorem takeEffect_kept (c : Chan) (k : ChanCommand) (s : State) : Kept s (takeEffect c k s) := by
  cases k with
  | start => exact startChannel_kept c _ s
  | startReplay => exact startChannel_kept c _ s
  | stop => exact stopChannel_kept c s
  | isolate => exact isolateChannel_kept c s
  | restart => exact restartChannel_kept c s

theorem markPartial_kept (s : State) : Kept s (markPartial s) := by
  unfold markPartial
  split
  · exact setCommand_kept _
  · exact .refl s

theorem takeCommand_kept (c : Chan) (k : ChanCommand) (s : State) : Kept s (takeCommand c k s) := by
  unfold takeCommand
  simp only
  split
  · exact (modRecord_kept c _).trans (takeEffect_kept c k _)
  · exact (modRecord_kept c _).trans (markPartial_kept _)

theorem reportCompletion_kept (c : Chan) (s : State) : Kept s (reportCompletion c s) := by
  unfold reportCompletion
  split
  · exact modChan_kept c ⟨id, id, id⟩
  · exact modChan_kept c ⟨id, id, id⟩
  all_goals exact .refl s

/-! ## The setup unit -/

theorem offerBlocks_kept (s : State) : Kept s (offerBlocks s) :=
  (kept_foldl _ (fun u _ => offerStatus_kept _ _ u) allChans s).trans (offerStatus_kept _ _ _)

theorem endCommand_kept (r : Running) (res : CommandResult) (check : Nat) (s : State) : Kept s (endCommand r res check s) :=
  ((offerWord_kept _ _ s).trans (setCommand_kept _)).trans (offerBlocks_kept _)

theorem settleCommand_kept (s : State) : Kept s (settleCommand s) := by
  unfold settleCommand
  split
  · split
    · exact endCommand_kept _ _ _ s
    · exact .refl s
  · exact .refl s

theorem takeGeometry_kept (g : Geometry) (s : State) (hg : s.setup.geometry = none) : Kept s (takeGeometry g s) := by
  refine Kept.trans ?_ (offerWord_kept _ _ _)
  exact ⟨⟨id, id, fun _ => id, fun _ => .refl _, id, id⟩, rfl, rfl, rfl, rfl, rfl, rfl, rfl, fun h hh => by rw [hg] at hh; cases hh⟩

theorem giveSet_kept (w : Nat) (s : State) (c : Chan) : Kept s (giveSet w s c) := by
  have hgive : Kept s (recomputePitch c (modChan c (fun ch => { ch with params := clampedSet w s.setup.staged c }) s)) :=
    recomputePitch_modChan_kept c id id fun h => ⟨(pitchSound_parts h).1, clampChan_pitchBounds w _, (pitchSound_parts h).2.2⟩
  unfold giveSet
  simp only
  split
  · refine modChan_kept c ⟨id, fun h => ?_, id⟩
    obtain ⟨hring, heff, hlo, hhi, -⟩ := h
    exact ⟨hring, heff, hlo, hhi, clampChan_pitchBounds w _⟩
  all_goals exact hgive

theorem switchPart_kept (w : Nat) (s : State) : Kept s (switchPart w s) := by
  have hstrands : Kept s (allStrands.foldl giveStrand s) :=
    kept_foldl _ (fun _ k => modStrand_kept k (applyStrand_sound _)) allStrands s
  have hring (p : PartSection) (t : State) : Kept t (giveRing p t) := modRing_kept id
  have hstatus (p : PartSection) (t : State) : Kept t (giveStatus p t) := by
    unfold giveStatus
    exact refreshAttention_modStatus_kept _ t
  have hpart := (hstrands.trans (hring (clampPart (stagedPart s.setup.staged)) _)).trans (hstatus (clampPart (stagedPart s.setup.staged)) _)
  exact hpart.trans (kept_foldl (giveSet w) (giveSet_kept w) allChans _)

theorem applyWith_kept (tag code : Byte) (w : Nat) (differs : Bool) (s : State) : Kept s (applyWith tag code w differs s) :=
  ((setCommand_kept _).trans (switchPart_kept w _)).trans (settleCommand_kept _)

theorem runApply_kept (tag code : Byte) (s : State) : Kept s (runApply tag code s) := by
  unfold runApply
  simp only
  split
  · exact applyWith_kept tag code _ _ s
  · next hg =>
    split
    · exact endCommand_kept _ _ _ s
    · exact (takeGeometry_kept _ s hg).trans (applyWith_kept tag code _ _ _)

theorem deliverTo_kept (k : ChanCommand) (s : State) (c : Chan) : Kept s (deliverTo k s c) := by
  unfold deliverTo
  split
  · exact modRecord_kept c _
  · exact takeCommand_kept c k s

theorem runChannels_kept (tag code : Byte) (mask : BitVec 16) (k : ChanCommand) (s : State) :
    Kept s (runChannels tag code mask k s) :=
  (((setCommand_kept _).trans (setFreeCount_kept _)).trans (kept_foldl _ (deliverTo_kept k) _ _)).trans (settleCommand_kept _)

/-- R182: a channel at its RESET_PART values. -/
theorem resetChannel_kept (ch : Channel) : ChanKept ch (resetChannel ch) :=
  ⟨fun _ => tracksSound_nil, fun h => pitchSound_of_eq (Nat.zero_le 8) rfl (pitchSound_parts h).2.1 (fun _ hp => nomatch hp),
    fun _ => ⟨rfl, rfl, rfl⟩⟩

theorem resetBlocks_kept (s : State) : Kept s (resetBlocks s) := by
  refine ⟨⟨id, id, fun k _ => ?_, fun c => ?_, id, id⟩, rfl, rfl, rfl, rfl, rfl, rfl, rfl, fun _ => id⟩
  · simp only [resetBlocks, Bank4.get_map]
    exact resetPartStrand_sound _
  · simp only [State.chan, resetBlocks, Bank16.get_map]
    exact resetChannel_kept _

/-- An owner's set given its RESET_PART value: a change of the status unit beside an offer. -/
theorem resetSet_modStatus (st : Status) (s : State) (o : Owner) :
    ∃ st' t, resetSet (modStatus (fun _ => st) s) o = modStatus (fun _ => st') t ∧ Kept s t := by
  unfold resetSet
  split
  · exact ⟨st, s, rfl, .refl s⟩
  · exact ⟨_, offerWord _ _ s, rfl, offerWord_kept _ _ s⟩

theorem foldl_resetSet_modStatus (os : List Owner) (st : Status) (s : State) :
    ∃ st' t, os.foldl resetSet (modStatus (fun _ => st) s) = modStatus (fun _ => st') t ∧ Kept s t := by
  induction os generalizing st s with
  | nil => exact ⟨st, s, rfl, .refl s⟩
  | cons o os ih =>
    obtain ⟨st1, t1, h1, k1⟩ := resetSet_modStatus st s o
    obtain ⟨st2, t2, h2, k2⟩ := ih st1 t1
    exact ⟨st2, t2, by rw [List.foldl_cons, h1, h2], k1.trans k2⟩

/-- The sets are emptied one by one; the refresh at the end makes the summary that of the sets. -/
theorem resetStatus_kept (s : State) : Kept s (resetStatus s) := by
  obtain ⟨st, t, ht, hk⟩ := foldl_resetSet_modStatus allOwners
    { s.status with counters := Bank16.all ChanCounters.zero, partCounters := PartCounters.zero } s
  have heq : resetStatus s = refreshAttention (modStatus (fun _ => st) t) := congrArg refreshAttention ht
  rw [heq]
  exact hk.trans (refreshAttention_modStatus_kept _ t)

theorem stopRing_kept (s : State) : Kept s (modRing (fun r => { r with resetWait := true, age := none }) s) := modRing_kept id

theorem resetSecondPart_kept (s : State) : Kept s (resetSecondPart s) := by
  have hdropped : Kept s (allChans.foldl (fun t c => dropCapture c t) s) :=
    kept_foldl (fun t c => dropCapture c t) (fun t c => dropCapture_kept c t) allChans s
  unfold resetSecondPart
  have hreset := (hdropped.trans (resetBlocks_kept _)).trans (resetStatus_kept _)
  exact hreset.trans (stopRing_kept _)

theorem runResetPart_kept (tag code : Byte) (s : State) : Kept s (runResetPart tag code s) := by
  unfold runResetPart
  simp only
  split
  · exact (setCommand_kept _).trans (resetSecondPart_kept _)
  · exact setCommand_kept _

theorem runFlush_kept (tag code : Byte) (s : State) : Kept s (runFlush tag code s) := by
  unfold runFlush
  exact (requestFlush_kept s).trans (endCommand_kept _ _ _ _)

theorem refuse_kept (tag code : Byte) (res : CommandResult) (check : Nat) (s : State) : Kept s (refuse tag code res check s) := by
  unfold refuse
  exact endCommand_kept _ _ _ s

theorem runMasked_kept (tag code : Byte) (mask : BitVec 16) (k : ChanCommand) (s : State) :
    Kept s (runMasked tag code mask k s) := by
  unfold runMasked
  split
  · exact refuse_kept _ _ _ _ s
  · exact runChannels_kept tag code mask k s

theorem runKnown_kept (tag code : Byte) (mask : BitVec 16) (s : State) : Kept s (runKnown tag code mask s) := by
  unfold runKnown
  split
  · exact runApply_kept tag code s
  iterate 5 · exact runMasked_kept tag code mask _ s
  · exact runFlush_kept tag code s
  · exact runResetPart_kept tag code s
  · exact .refl s

theorem runCommand_kept (tag code : Byte) (mask : BitVec 16) (s : State) : Kept s (runCommand tag code mask s) := by
  unfold runCommand
  split
  · exact refuse_kept _ _ _ _ s
  · split
    · exact refuse_kept _ _ _ _ s
    · exact runKnown_kept tag code mask s

theorem startCommand_kept (s : State) : Kept s (startCommand s) := by
  unfold startCommand
  simp only
  split
  · exact runCommand_kept _ _ _ s
  · exact offerWord_kept _ _ s

/-! ## Line capture -/

theorem mergeLine_kept (c : Chan) (i : Nat) (b : Beat) (s : State) : Kept s (mergeLine c i b s) := by
  unfold mergeLine
  split
  · next e _ => exact modCapture_kept c fun h => buffersCanonical_setEntry e (wfStore_mergeInto i b (h e)) h
  · exact .refl s

theorem countMalformed_kept (c : Chan) (s : State) : Kept s (countMalformed c s) :=
  (modCounters_kept c _).trans (latchChan_kept c _ _)

theorem abandonLine_kept (c : Chan) (s : State) : Kept s (abandonLine c s) := by
  refine Kept.trans (modCapture_kept c fun h => ?_)
    (((countMalformed_kept c _).trans (modCapture_kept c id)).trans (placeUnseen_kept c _))
  split
  · next e _ => exact buffersCanonical_setEntry e rfl h
  · exact h

theorem skipLine_kept (c : Chan) (j : Nat) (s : State) : Kept s (skipLine c j s) :=
  ((((modCapture_kept c id).trans (modCounters_kept c _)).trans (latchChan_kept c _ _)).trans (modCapture_kept c id)).trans
    (placeUnseen_kept c _)

theorem startLine_kept (c : Chan) (j : Nat) (b : Beat) (s : State) : Kept s (startLine c j b s) := by
  unfold startLine
  split
  · next e _ => exact modCapture_kept c fun h => buffersCanonical_setEntry e (wfStore_mergeInto 0 b rfl) h
  · exact skipLine_kept c j s

theorem headerBeat_kept (c : Chan) (j : Nat) (b : Beat) (s : State) : Kept s (headerBeat c j b s) := by
  unfold headerBeat
  split
  · exact startLine_kept c j b s
  · exact startLine_kept c j b s
  · split
    · exact mergeLine_kept c 0 b s
    · exact (abandonLine_kept c s).trans (startLine_kept c j b _)

theorem completionConditions_kept (c : Chan) (k : LineClass) (gap : Nat) (s : State) :
    Kept s (completionConditions c k gap s) := by
  unfold completionConditions
  have hcount : Kept s (if k = .malformed then countMalformed c s else s) := by
    split
    · exact countMalformed_kept c s
    · exact .refl s
  simp only
  split
  · exact hcount.trans (latchChan_kept c _ _)
  · exact hcount

theorem handCount_kept (c : Chan) (k : LineClass) (count : Word32) (s : State) : Kept s (handCount c k count s) := by
  unfold handCount
  split
  · exact modStrand_kept (strandOf c) (countLine_sound s.ms count)
  · exact .refl s

theorem holdTrailer_kept (c : Chan) (e : Fin 2) (id i : Nat) (s : State) : Kept s (holdTrailer c e id i s) :=
  modChan_kept c ⟨fun h => h, fun h => h, fun h => h⟩

theorem enqueueEntry_kept (c : Chan) (e : Fin 2) (k : LineClass) (gap : Nat) (s : State) : Kept s (enqueueEntry c e k gap s) :=
  modCapture_kept c fun h => buffersCanonical_setEntry e (h e) h

theorem completeEffects_kept (c : Chan) (e : Fin 2) (k : LineClass) (s : State) : Kept s (completeEffects c e k s) := by
  have hplace (w : Nat) (en : Entry) (t : State) : Kept t (modCapture c (placeLine w c en) t) := by
    refine modCapture_kept c fun h => ?_
    unfold placeLine
    split
    · exact h
    · split <;> exact h
  exact ((((reportCompletion_kept c s).trans (hplace _ _ _)).trans (completionConditions_kept c k _ _)).trans
    (enqueueEntry_kept c e k _ _)).trans (handCount_kept c k _ _)

theorem serveIfAlone_kept (c : Chan) (b : Bool) (s : State) : Kept s (serveIfAlone c b s) := by
  unfold serveIfAlone
  split
  · exact serveHead_kept c 3 s
  · exact .refl s

theorem completeLine_kept (c : Chan) (e : Fin 2) (id i : Nat) (x : Acceptance) :
    Kept x.st (completeLine c e id i x).st := by
  unfold completeLine
  simp only
  split
  · exact (completeEffects_kept c e _ x.st).trans (serveIfAlone_kept c _ _)
  · exact ((completeEffects_kept c e _ x.st).trans (holdTrailer_kept c e id i _)).trans (serveIfAlone_kept c _ _)

theorem ownTrailer_kept (c : Chan) (id i : Nat) (x : Acceptance) : Kept x.st (ownTrailer c id i x).st := by
  unfold ownTrailer
  split
  · split
    · exact completeLine_kept c _ id i x
    · exact .refl x.st
  · exact modCapture_kept c (f := fun k => { k with asm := .idle }) fun h => h
  · exact .refl x.st

theorem ownBeat_kept (c : Chan) (n : Nat) (b : Beat) (s : State) : Kept s (ownBeat c n b s) := by
  unfold ownBeat
  split
  · exact mergeLine_kept c n b s
  all_goals exact .refl s

@[simp] theorem noteStray_st (c : Chan) (x : Acceptance) : (noteStray c x).st = x.st := by
  unfold noteStray
  split <;> rfl

theorem lineBeat_kept (c : Chan) (j offset id i : Nat) (b : Beat) (x : Acceptance) :
    Kept x.st (lineBeat c j offset id i b x).st := by
  unfold lineBeat
  split
  · exact .refl x.st
  · split
    · exact ownTrailer_kept c id i x
    · rw [noteStray_st]; exact .refl x.st
  · split
    · exact .refl x.st
    · split
      · exact headerBeat_kept c j b x.st
      · split
        · exact ownBeat_kept c _ b x.st
        · rw [noteStray_st]; exact .refl x.st

theorem endOther_kept (j : Nat) (c : Chan) (s : State) (d : Chan) : Kept s (endOther j c s d) := by
  unfold endOther
  split
  · split
    · split
      · exact abandonLine_kept d s
      · exact .refl s
    · split
      · exact modCapture_kept d id
      · exact .refl s
    · exact .refl s
  · exact .refl s

theorem clearUnrouted_kept (j : Nat) (s : State) : Kept s (clearUnrouted j s) := by
  unfold clearUnrouted
  split
  · exact setUnrouted_kept none
  · exact .refl s

theorem replayContent_kept (j n : Nat) (b : Beat) (s : State) : Kept s (replayContent j n b s) := by
  unfold replayContent
  split
  · exact ownBeat_kept _ n b s
  · exact .refl s

theorem replayHeader_kept (j : Nat) (b : Beat) (s : State) : Kept s (replayHeader j b s) := by
  unfold replayHeader
  split
  · next c _ =>
    exact ((kept_foldl _ (endOther_kept j c) allChans s).trans (clearUnrouted_kept j _)).trans (headerBeat_kept c j b _)
  · exact ((replayContent_kept j 0 b s).trans (setUnrouted_kept _)).trans (latchPart_kept _ _)

theorem replayBeat_kept (j offset id i : Nat) (b : Beat) (x : Acceptance) : Kept x.st (replayBeat j offset id i b x).st := by
  unfold replayBeat
  split
  · exact .refl x.st
  · split
    · exact ownTrailer_kept _ id i x
    · split
      · exact setUnrouted_kept none
      · exact .refl x.st
  · split
    · exact .refl x.st
    · simp only
      split
      · exact replayHeader_kept j b x.st
      · exact replayContent_kept j _ b x.st

theorem takeBeat_kept (id i a : Nat) (b : Beat) (x : Acceptance) : Kept x.st (takeBeat id i a b x).st := by
  unfold takeBeat
  split
  · split
    · exact lineBeat_kept _ _ _ id i b x
    · exact .refl x.st
  · exact replayBeat_kept _ _ id i b x
  all_goals exact .refl x.st

theorem takeBeats_kept (id a i : Nat) (bs : List Beat) (x : Acceptance) : Kept x.st (takeBeats id a i bs x).st := by
  induction bs generalizing i x with
  | nil => exact .refl x.st
  | cons b bs ih => exact (takeBeat_kept id i _ b x).trans (ih _ _)

theorem captureWrite_kept (id a : Nat) (beats : List Beat) (s : State) : Kept s (captureWrite id a beats s).st :=
  (takeBeats_kept id a 0 beats { st := s, rewrites := [], isHeld := false, strays := [] }).trans
    (kept_foldl countStray (fun _ c => modCounters_kept c _) _ _)

/-! ## The ring writer -/

theorem placeRecord_kept (i : Nat) (r : Record) (s : State) (ha : admitsRecord s.path = true) (hq : s.ring.queue ≠ []) :
    Kept s (placeRecord i r s) :=
  (modPath_kept (putRecordWrite_sound _ _ s.path ha)).trans (modRing_kept (recordsSound_placedRing _ _ _ _ hq))

theorem offerFillers_kept (i n : Nat) (s : State) : Kept s (offerFillers i n s) := by
  induction n generalizing s with
  | zero => exact modRing_kept id
  | succ n ih =>
    unfold offerFillers
    split
    · next ha => exact ((modPath_kept (putRecordWrite_sound _ _ s.path ha)).trans (modRing_kept id)).trans (ih _)
    · exact modRing_kept id

theorem retryFillers_kept (s : State) : Kept s (retryFillers s) := by
  unfold retryFillers
  split
  · split
    · exact .refl s
    · exact offerFillers_kept _ _ s
  all_goals exact .refl s

theorem applyFlush_kept (i : Nat) (s : State) : Kept s (applyFlush i s) :=
  (modRing_kept id).trans (offerFillers_kept i _ _)

theorem discardFlush_sound {r : Ring} (h : RecordsSound r) : RecordsSound (discardFlush r) := by
  rcases discardFlush_cases r with e | e <;> rw [e] <;> exact h

theorem advanceFill_sound (i : Nat) {r : Ring} (h : RecordsSound r) : RecordsSound (advanceFill i r) := by
  unfold advanceFill
  simp only
  split
  · exact discardFlush_sound h
  all_goals exact h

theorem latchIfBlocked_kept (s : State) : Kept s (latchIfBlocked s) := by
  unfold latchIfBlocked
  split
  · exact latchPart_kept _ s
  · exact .refl s

theorem slotReady_kept (i b : Nat) (s : State) : Kept s (slotReady i b s) := by
  have hready : Kept s (modRing (fun r => { setSlot i { state := .ready, places := b } r with index := r.index + 1 }) s) :=
    modRing_kept id
  unfold slotReady
  exact (((hready.trans (offerWord_kept _ _ _)).trans (latchPart_kept _ _)).trans
    (modRing_kept (advanceFill_sound i))).trans (latchIfBlocked_kept _)

theorem recordWriteDone_kept (s : State) : Kept s (recordWriteDone s) := by
  unfold recordWriteDone
  simp only
  split
  · exact (modRing_kept id).trans (slotReady_kept _ _ _)
  · exact modRing_kept id

theorem takeSlot_kept (i : Nat) (s : State) : Kept s (takeSlot i s) := by
  unfold takeSlot
  split
  · exact .refl s
  · refine modRing_kept fun h => ?_
    unfold takenRing
    split
    · split
      · exact discardFlush_sound h
      · exact h
    all_goals exact h

theorem writeStartUp_kept (cause : StartUpCause) (s : State) : Kept s (writeStartUp cause s) :=
  (modStatus_kept (attentionSound_congr (fun o => by cases o <;> rfl) rfl rfl rfl)).trans (offerWord_kept _ _ _)

theorem ringTakesReset_kept (s : State) : Kept s (ringTakesReset s) :=
  ((modRing_kept (f := resetRing) fun _ => ⟨Nat.zero_le 64, trivial⟩).trans (offerWord_kept _ _ _)).trans (setLatched_kept _ _ _)

theorem finishReset_kept (s : State) : Kept s (finishReset s) := by
  unfold finishReset
  split
  · exact (writeStartUp_kept _ s).trans (endCommand_kept _ _ _ _)
  · exact .refl s

/-! ## The memory path -/

theorem listTxn_kept (t : SysTxn) (s : State) : Kept s (listTxn t s) := modPath_kept id

theorem stageWrite_kept (a : Nat) (beats : List Beat) (s : State) : Kept s (stageWrite a beats s) :=
  setStaged_kept (wfStore_stageBeats _ a beats s.setup.staged)

theorem acceptWrite_kept (id a : Nat) (beats : List Beat) (s : State) : Kept s (acceptWrite id a beats s) := by
  have hlisted (t : SysTxn) : Kept s (settleCommand (listTxn t (stageWrite a beats (captureWrite id a beats s).st))) :=
    (((captureWrite_kept id a beats s).trans (stageWrite_kept a beats _)).trans (listTxn_kept t _)).trans (settleCommand_kept _)
  unfold acceptWrite
  simp only
  split
  · exact (hlisted _).trans (startCommand_kept _)
  · exact hlisted _

theorem acceptTxn_kept (p : PortTxn) (s : State) : Kept s (acceptTxn p s) := by
  unfold acceptTxn
  split
  · exact listTxn_kept _ s
  · split
    · exact listTxn_kept _ s
    · exact acceptWrite_kept _ _ _ s

theorem drainPort_kept (ps : List PortTxn) (s : State) : Kept s (drainPort ps s) := by
  induction ps generalizing s with
  | nil => exact modPath_kept id
  | cons p ps ih =>
    unfold drainPort
    split
    · exact (acceptTxn_kept p s).trans (ih _)
    · exact modPath_kept id

theorem presentTxn_kept (a : Nat) (body : Body) (s : State) : Kept s (presentTxn a body s) := by
  unfold presentTxn
  simp only
  split
  · exact (modPath_kept id).trans (acceptTxn_kept _ _)
  · exact (modPath_kept (f := fun p => { p with nextId := p.nextId + 1 }) id).trans (modPath_kept id)

theorem grantMemorySide_kept (s : State) : Kept s (grantMemorySide s) := by
  unfold grantMemorySide
  split
  · split
    · exact (modPath_kept id).trans (drainPort_kept _ _)
    · exact .refl s
  · split
    · next e q hq => exact (modPath_kept (issuePartTo_sound e s.path (by simp [hq]))).trans (retryFillers_kept _)
    · exact .refl s
  · exact .refl s

theorem answerId_kept (id : Nat) (status : RespStatus) (data : List Word64) (s : State) : Kept s (answerId id status data s) := by
  have hpass (o : SysOut) : Kept s (passBack o status data s) := modPath_kept fun h => h
  have hcovered (l : List (Nat × BitVec 16)) (t : State) : Kept t (clearCovered l t) :=
    kept_foldl _ (fun u w => setLatched_kept _ _ u) l t
  have hread (o : SysOut) (t : State) : Kept t (readReturned o t) := by
    unfold readReturned acknowledge
    split
    · exact .refl t
    · exact hcovered _ t
    · split
      · exact (hcovered _ t).trans (takeSlot_kept _ _)
      · exact hcovered _ t
  unfold answerId
  split
  · next o _ =>
    unfold answerSystem
    simp only
    split
    · split
      · exact (hpass o).trans (hread o _)
      · exact hpass o
    · exact hpass o
  · exact .refl s

theorem publishWord_kept (o : PartOut) (s : State) : Kept s (publishWord o s) := by
  unfold publishWord
  split
  · next k _ =>
    refine modStatus_kept (attentionSound_congr (fun p => ?_) ?_ ?_ ?_)
    · by_cases hp : p = k
      · subst hp
        rw [condWordOf_setCondWord_same]
        unfold publish
        split <;> rfl
      · rw [condWordOf_setCondWord_other _ _ hp]
    all_goals simp
  · exact .refl s

theorem tellProducer_kept (o : PartOut) (status : RespStatus) (s : State) : Kept s (tellProducer o status s) := by
  unfold tellProducer
  split
  · exact recordWriteDone_kept s
  · exact .refl s
  · split
    · exact publishWord_kept o s
    · exact .refl s

theorem countMemoryError_kept (s : State) : Kept s (countMemoryError s) :=
  (modPartCounters_kept _).trans (latchPart_kept _ _)

theorem answerPart_kept (o : PartOut) (status : RespStatus) (s : State) : Kept s (answerPart o status s) := by
  have htaken : Kept s (modPath (fun p => { p with partOut := p.partOut.filter fun u => decide (u.id ≠ o.id) }) s) :=
    modPath_kept id
  unfold answerPart
  simp only
  split
  · split
    · exact htaken.trans (tellProducer_kept o _ _)
    · exact (htaken.trans (countMemoryError_kept _)).trans (tellProducer_kept o _ _)
  · exact htaken

/-! ## The engine and the timers -/

theorem grantEngine_kept (c : Chan) (e : Fin 2) (s : State) : Kept s (grantEngine c e s) := by
  unfold grantEngine
  exact ((switchInspecting_kept c s).trans (setEngine_kept _)).trans
    (modCapture_kept c (f := fun k => setEntry k e { entryOf k e with state := .engaged }) fun h =>
      buffersCanonical_setEntry e (h e) h)

theorem applyOutcome_kept (c : Chan) (r : LineResult) (s : State)
    (h : wfStore (0, 0) (s.chan c).background = true → wfStore (0, 0) r.background = true) : Kept s (applyOutcome c r s) := by
  have hbg : Kept s (modChan c (fun ch => { ch with background := r.background }) s) :=
    modChan_kept c ⟨id, id, fun hs => ⟨hs.1, hs.2.1, h hs.2.2⟩⟩
  have hif (p : Prop) [Decidable p] (f : State → State) (t : State) (hf : Kept t (f t)) : Kept t (if p then f t else t) := by
    split
    · exact hf
    · exact .refl t
  unfold applyOutcome
  simp only
  exact ((hbg.trans (hif _ (fun t => latchChan c .obscured (modCounters c _ t)) _
    ((modCounters_kept c _).trans (latchChan_kept c _ _)))).trans (hif _ (latchChan c .stuckColumn) _ (latchChan_kept c _ _))).trans
    (hif _ (latchChan c .runClutter) _ (latchChan_kept c _ _))

theorem applyRuns_kept (c : Chan) (set : ParamSet) (en : Entry) (r : LineResult) (s : State) :
    Kept s (applyRuns c set en r s) := by
  unfold applyRuns
  split
  · exact (takeLine_kept c set _ s).trans (takeBandOutcome_kept c set _ _ _ _)
  all_goals exact .refl s

theorem applyRecord_kept (a : Analysis) (count : Word32) (v : FinalVerdict) (s : State) : Kept s (applyRecord a count v s) := by
  unfold applyRecord
  simp only
  split
  · exact (modRecord_kept _ _).trans (modCounters_kept _ _)
  · exact modRecord_kept _ _

theorem releaseVerdict_kept (c : Chan) (e : Fin 2) (r : LineResult) (s : State) : Kept s (releaseVerdict c e r s) := by
  unfold releaseVerdict
  split
  · exact releaseTrailer_kept c _ _ s
  · exact .refl s

theorem afterRetirement_kept (c : Chan) (s : State) : Kept s (afterRetirement c s) := by
  have hend : Kept s (endAbandoned c s) := by
    unfold endAbandoned
    split
    · exact (switchInspecting_kept c s).trans (abandonBillet_kept c _)
    · exact .refl s
  have hpending (t : State) : Kept t (takePending c t) := by
    unfold takePending
    split
    · exact takeCommand_kept c _ t
    · exact .refl t
  unfold afterRetirement
  simp only
  split
  · exact (hend.trans (setEngine_kept _)).trans (resetSecondPart_kept _)
  · exact ((hend.trans (hpending _)).trans (serveHead_kept c 3 _)).trans (setEngine_kept _)

theorem completeAnalysis_kept (a : Analysis) (e : Fin 2) (s : State) : Kept s (completeAnalysis a e s) :=
  (((((applyOutcome_kept a.chan _ s (wfStore_analyse _ _ _ _ _)).trans (applyRuns_kept _ _ _ _ _)).trans
    (applyRecord_kept a _ _ _)).trans (releaseVerdict_kept _ e _ _)).trans (retire_kept _ e _ _)).trans (afterRetirement_kept _ _)

theorem releasePending_kept (c : Chan) (h : HeldTrailer) (s : State) : Kept s (releasePending c h s) :=
  ((releaseTrailer_kept c h _ s).trans (modCounters_kept c _)).trans (latchChan_kept c _ _)

theorem stallChannel_kept (c : Chan) (s : State) : Kept s (stallChannel c s) :=
  ((switchParams_kept c s).trans (modChan_kept c ⟨id, id, id⟩)).trans (latchChan_kept c _ _)

theorem abandonExpires_kept (c : Chan) (s : State) : Kept s (abandonExpires c s) := by
  unfold abandonExpires
  split
  · exact modRecord_kept c _
  · exact (abandonBillet_kept c s).trans (serveHead_kept c 3 _)

end Sys2Proof.Machine
end

section
/-! The steps of the part: what every command but the resets keeps, the soundness that the resets establish, and the obligations
about the queue of commands, the clock, the pins and the invariants. -/

namespace Sys2Proof.Machine

open Sys2Proof.Safety

/-! ## Commands that are no reset -/

section Commands

variable {s t : State}

theorem execSystemWrite_kept {mf : BitVec 8} {a : BitVec 40} {beats : List Beat} (h : execSystemWrite mf a beats s = .next t) :
    Kept { s with mfIn := mf } t := by
  unfold execSystemWrite presentWrite at h
  split at h
  · cases h; exact presentTxn_kept _ _ _
  · cases h

theorem execSystemRead_kept {a : BitVec 40} {n : Nat} (h : execSystemRead a n s = .next t) : Kept s t := by
  unfold execSystemRead at h
  split at h
  · cases h; exact presentTxn_kept _ _ _
  · cases h

theorem execStagedWrite_kept {o : BitVec 14} {beats : List Beat} (h : execStagedWrite o beats s = .next t) : Kept s t := by
  unfold execStagedWrite presentWrite at h
  split at h
  · cases h; exact presentTxn_kept _ _ _
  · cases h

theorem execEngineGrant_kept (h : execEngineGrant s = .next t) : Kept s t := by
  unfold execEngineGrant at h
  split at h
  · cases h; exact (grantEngine_kept _ _ s).trans (settleCommand_kept _)
  · cases h; exact .refl s

theorem execAnalysisCompletion_kept (h : execAnalysisCompletion s = .next t) : Kept s t := by
  unfold execAnalysisCompletion at h
  split at h
  · split at h
    · cases h; exact (completeAnalysis_kept _ _ s).trans (settleCommand_kept _)
    · cases h; exact setEngine_kept _
  · cases h; exact .refl s

theorem execHoldTimerExpiry_kept {c : Chan} {e : Fin 2} (h : execHoldTimerExpiry c e s = .next t) : Kept s t := by
  unfold execHoldTimerExpiry at h
  split at h
  · split at h
    · cases h; exact releasePending_kept c _ s
    · cases h; exact .refl s
  · cases h; exact .refl s

theorem execStallTimerExpiry_kept {c : Chan} (h : execStallTimerExpiry c s = .next t) : Kept s t := by
  unfold execStallTimerExpiry at h
  split at h
  · split at h
    · cases h; exact (stallChannel_kept c s).trans (settleCommand_kept _)
    · cases h; exact .refl s
  · cases h; exact .refl s

theorem execAbandonTimerExpiry_kept {c : Chan} (h : execAbandonTimerExpiry c s = .next t) : Kept s t := by
  unfold execAbandonTimerExpiry at h
  split at h
  · split at h
    · cases h; exact abandonExpires_kept c s
    · cases h; exact .refl s
  · cases h; exact .refl s

theorem execPartWriteResponse_kept {id : Nat} {status : RespStatus} (h : execPartWriteResponse id status s = .next t) :
    Kept s t := by
  unfold execPartWriteResponse at h
  split at h
  · cases h; exact answerPart_kept _ _ s
  · cases h; exact .refl s

theorem execRecordPlacement_kept (h : execRecordPlacement s = .next t) : Kept s t := by
  unfold execRecordPlacement at h
  split at h
  · next i r q hp hq =>
    cases h
    refine placeRecord_kept i r s ?_ (by simp [hq])
    unfold placeableSlot at hp
    split at hp
    · split at hp
      · next hadmits => exact hadmits.2.2
      · cases hp
    · cases hp
    · cases hp
  · cases h; exact .refl s
  · cases h; exact .refl s

theorem execFlushApply_kept (h : execFlushApply s = .next t) : Kept s t := by
  unfold execFlushApply at h
  split at h
  · cases h; exact applyFlush_kept _ s
  · cases h; exact .refl s

theorem execRingResetPartTake_kept (h : execRingResetPartTake s = .next t) : Kept s t := by
  unfold execRingResetPartTake at h
  split at h
  · cases h; exact (ringTakesReset_kept s).trans (finishReset_kept _)
  · cases h; exact .refl s

theorem execBatchAgeExpiry_kept (h : execBatchAgeExpiry s = .next t) : Kept s t := by
  unfold execBatchAgeExpiry at h
  split at h
  · split at h
    · cases h; exact (modRing_kept (f := fun r => { r with age := none }) id).trans (requestFlushOn_kept _ _)
    · cases h; exact .refl s
  · cases h; exact .refl s

theorem execPulseEnd_kept {k : Strand} (h : execPulseEnd k s = .next t) : Kept s t := by
  unfold execPulseEnd at h
  split at h
  · split at h
    · cases h; exact modStrand_kept k (f := fun t => { t with pulse := none }) id
    · cases h; exact .refl s
  · cases h; exact .refl s

theorem execMarkExpiry_kept {k : Strand} {trigger : Word32} (h : execMarkExpiry k trigger s = .next t) : Kept s t := by
  unfold execMarkExpiry at h
  split at h
  · cases h
    have hleft : Kept s (modStrand k
        (fun t => settleMerge { t with queue := t.queue.filter fun m => !markExpired s.ms trigger m }) s) :=
      modStrand_kept k fun hm => settleMerge_sound (marksSound_sublist List.filter_sublist rfl hm)
    exact (hleft.trans (modPartCounters_kept _)).trans (latchPart_kept _ _)
  · cases h; exact .refl s

theorem execSnapshotExpiry_kept (h : execSnapshotExpiry s = .next t) : Kept s t := by
  unfold execSnapshotExpiry at h
  split at h
  · split at h
    · cases h
      exact (modStatus_kept (attentionSound_congr (fun o => by cases o <;> rfl) rfl rfl rfl)).trans (offerBlocks_kept _)
    · cases h; exact .refl s
  · cases h; exact .refl s

end Commands

/-- The levels on the MF lines that a command leaves (log 9). -/
def mfAfter (i : Instr) (s : State) : BitVec 8 :=
  match i with
  | .systemWrite mf _ _ => mf
  | .memorySideGrant mf => mf
  | _ => s.mfIn

/-- The commands that reset the part (R169, R37). -/
def isReset : Instr → Bool
  | .powerOn _ => true
  | .resetLineAssert => true
  | .resetLineRelease _ => true
  | _ => false

theorem exec_kept {i : Instr} {s t : State} (hi : isReset i = false) (h : exec i s = .next t) :
    Kept { s with mfIn := mfAfter i s } t := by
  cases i with
  | powerOn n | resetLineRelease n => cases hi
  | resetLineAssert => cases hi
  | systemWrite mf a beats => exact execSystemWrite_kept h
  | systemRead a n => exact execSystemRead_kept h
  | engineGrant => exact execEngineGrant_kept h
  | analysisCompletion => exact execAnalysisCompletion_kept h
  | holdTimerExpiry c e => exact execHoldTimerExpiry_kept h
  | stallTimerExpiry c => exact execStallTimerExpiry_kept h
  | abandonTimerExpiry c => exact execAbandonTimerExpiry_kept h
  | apply | start | startReplay | stop | isolate | restart | flush | resetPart | unknownCommand =>
    cases h; exact presentTxn_kept _ _ s
  | stagedWrite o beats => exact execStagedWrite_kept h
  | batchTake id data | conditionWordRead id data => cases h; exact answerId_kept id .ok data s
  | readDataReturn id status data => cases h; exact answerId_kept id status data s
  | memorySideGrant mf => cases h; exact grantMemorySide_kept _
  | partWriteResponse id status => exact execPartWriteResponse_kept h
  | recordPlacement => exact execRecordPlacement_kept h
  | flushApply => exact execFlushApply_kept h
  | ringResetPartTake => exact execRingResetPartTake_kept h
  | batchAgeExpiry => exact execBatchAgeExpiry_kept h
  | pulseEnd k => exact execPulseEnd_kept h
  | markExpiry k trigger => exact execMarkExpiry_kept h
  | snapshotExpiry => exact execSnapshotExpiry_kept h

/-! ## The resets -/

/-- The start-up record and the condition words lie at addresses of their own. -/
theorem powerOnWrites_addr_nodup (n : BitVec 4) : ((powerOnWrites n).map Prod.fst).Nodup := by
  have heq : (powerOnWrites n).map Prod.fst = (startUpAt :: (List.range 17).map conditionAt).map (setupBase n + ·) := by
    simp [powerOnWrites, emptyConditionWrites, Function.comp_def]
  rw [heq]
  exact List.Nodup.map (add_right_injective _) (by decide)

theorem powerOn_outgoingSound (n : BitVec 4) : OutgoingSound (State.powerOn n).path := by
  have hwords : ((powerOnWrites n).map fun w => ({ kind := .word, addr := w.1, data := w.2 } : OutEntry)).filter
      (fun e => decide (e.kind ≠ .record)) = (powerOnWrites n).map fun w => { kind := .word, addr := w.1, data := w.2 } :=
    List.filter_eq_self.mpr fun e he => by
      obtain ⟨w, -, rfl⟩ := List.mem_map.mp he
      rfl
  have hlen : (powerOnWrites n).length = 18 := by simp [powerOnWrites, emptyConditionWrites]
  have hnone : ((powerOnWrites n).map fun w => ({ kind := .word, addr := w.1, data := w.2 } : OutEntry)).filter
      (fun e => decide (e.kind ≠ .word)) = [] :=
    List.filter_eq_nil_iff.mpr fun e he => by
      obtain ⟨w, -, rfl⟩ := List.mem_map.mp he
      simp
  refine ⟨by simp [State.powerOn, hlen], ?_, ?_, by simp [State.powerOn, Path.initial], .inl rfl⟩
  · simp only [State.powerOn, hnone]
    exact Nat.zero_le 24
  · simp only [State.powerOn, hwords, Path.initial, List.map_map, List.map_nil, List.append_nil]
    exact powerOnWrites_addr_nodup n

theorem channelInitial_pitchSound : PitchSound Channel.initial :=
  pitchSound_of_eq (Nat.zero_le 8) rfl (Nat.le_refl 0) fun _ hp => nomatch hp

theorem channelInitial_kept (ch : Channel) : ChanKept ch Channel.initial :=
  ⟨fun _ => tracksSound_nil, fun _ => channelInitial_pitchSound, fun _ => ⟨rfl, rfl, rfl⟩⟩

theorem statusInitial_attentionSound (n : Nat) : AttentionSound { Status.initial with resets := n } :=
  (attentionOf_empty fun o => by cases o <;> simp [condWordOf, Status.initial, CondWord.empty]).symm

theorem ringInitial_recordsSound : RecordsSound Ring.initial := ⟨Nat.zero_le 64, trivial⟩

theorem powerOn_keepsSound {n : BitVec 4} {s t : State} (h : execPowerOn n s = .next t) : KeepsSound s t := by
  cases h
  refine ⟨fun _ => powerOn_outgoingSound n, fun _ => ringInitial_recordsSound, fun k _ => ?_, fun c => ?_,
    fun _ => statusInitial_attentionSound 0, fun _ => rfl⟩
  · simp only [State.powerOn, Bank4.get_all]
    exact marksSound_nil rfl
  · simp only [State.chan, State.powerOn, Bank16.get_all]
    exact channelInitial_kept _

theorem assertReset_keepsSound (s : State) : KeepsSound s (assertReset s) := by
  refine ⟨fun _ => by simp [OutgoingSound, assertReset, assertPath], fun _ => ringInitial_recordsSound, fun k _ => ?_,
    fun c => ?_, fun _ => ?_, id⟩
  · simp only [assertReset, Bank4.get_all]
    exact marksSound_nil rfl
  · simp only [State.chan, assertReset, Bank16.get_map]
    exact resetChannel_kept _
  · refine (attentionOf_empty fun o => ?_).symm
    cases o <;> simp [condWordOf, assertReset, assertStatus, emptyLatched]

theorem releaseReset_keepsSound (n : BitVec 4) (s : State) : KeepsSound s (releaseReset n s) := by
  refine ⟨id, id, fun _ => id, fun c => ?_, fun _ => statusInitial_attentionSound _, fun _ => rfl⟩
  simp only [State.chan, releaseReset, Bank16.get_all]
  exact channelInitial_kept _

theorem releaseWrites_kept (s : State) : Kept s (releaseWrites s) :=
  ((writeStartUp_kept .resetLine s).trans (kept_foldl _ (fun u _ => offerWord_kept _ _ u) allOwners _)).trans
    (offerWord_kept _ _ _)

/-! ## Every command and every step -/

theorem exec_keepsSound {i : Instr} {s t : State} (h : exec i s = .next t) : KeepsSound s t := by
  cases hi : isReset i with
  | false =>
    obtain ⟨houtgoing, hrecords, hmarks, hchans, hattention, hstaged⟩ := (exec_kept hi h).toKeepsSound
    exact ⟨houtgoing, hrecords, hmarks, hchans, hattention, hstaged⟩
  | true =>
    cases i with
    | powerOn n => exact powerOn_keepsSound h
    | resetLineAssert =>
      change execResetLineAssert s = .next t at h
      unfold execResetLineAssert at h
      split at h
      · cases h; exact .refl s
      · cases h; exact assertReset_keepsSound s
    | resetLineRelease n =>
      change execResetLineRelease n s = .next t at h
      unfold execResetLineRelease at h
      split at h
      · cases h; exact (releaseReset_keepsSound n s).trans (releaseWrites_kept _).toKeepsSound
      · cases h; exact .refl s
    | _ => cases hi

theorem tick_keepsSound (s : State) : KeepsSound s (tick s) := by
  unfold tick
  split <;> exact ⟨id, id, fun _ => id, fun _ => .refl _, id, id⟩

theorem step_keepsSound {s t : State} (h : step s = .next t) : KeepsSound s t := by
  unfold step at h
  split at h
  · cases h; exact tick_keepsSound s
  · obtain ⟨houtgoing, hrecords, hmarks, hchans, hattention, hstaged⟩ := exec_keepsSound h
    exact ⟨houtgoing, hrecords, hmarks, hchans, hattention, hstaged⟩

/-! ## The invariants -/

/-- Settles O5: every operation of the part changes the outgoing write queue by offers, placements and issues, each of which
keeps it sound. -/
theorem stepsKeepTheOutgoingQueueSound : Obligations.StepsKeepTheOutgoingQueueSound :=
  fun _ _ hs h => (step_keepsSound h).outgoing hs

/-- Settles O6: a record enters with room, is lost with none, and leaves an entry to an open loss episode. -/
theorem stepsKeepTheRecordQueueSound : Obligations.StepsKeepTheRecordQueueSound :=
  fun _ _ hs h => (step_keepsSound h).records hs

/-- Settles O7: an entry joins past R148's tests alone, and MERGE rises only over an empty queue. -/
theorem stepsKeepTheMarkQueuesSound : Obligations.StepsKeepTheMarkQueuesSound :=
  fun _ _ hs h k => (step_keepsSound h).marks k (hs k)

/-- Settles O8: a line matches and ages tracks in place and opens them in FREE entries. -/
theorem stepsKeepTheTrackTablesSound : Obligations.StepsKeepTheTrackTablesSound :=
  fun _ _ hs h c => ((step_keepsSound h).chans c).tracks (hs c)

/-- Settles O9: ring and parameters change only with R85's recomputation. -/
theorem stepsKeepTheEffectivePitch : Obligations.StepsKeepTheEffectivePitch :=
  fun _ _ hs h c => ((step_keepsSound h).chans c).pitch (hs c)

/-- Settles O10: each change of a latched set or of the mask is followed by R187's refresh. -/
theorem stepsKeepTheAttentionSummary : Obligations.StepsKeepTheAttentionSummary :=
  fun _ _ hs h => (step_keepsSound h).attention hs

/-- Settles O11: the stores are written by operations that keep the canonical form. -/
theorem stepsKeepTheStoresCanonical : Obligations.StepsKeepTheStoresCanonical :=
  fun _ _ hs h => ⟨(step_keepsSound h).staged hs.1, fun c => ((step_keepsSound h).chans c).stores (hs.2 c)⟩

/-- Settles O2: the commands that are no reset by what all operations keep, the three resets by their definitions. -/
theorem commandsKeepQueueClockAndPins : Obligations.CommandsKeepQueueClockAndPins := by
  intro i s t h
  cases hi : isReset i with
  | false =>
    have hk := exec_kept hi h
    refine ⟨hk.pending, fun _ => ⟨hk.us, hk.ms, hk.usInMs⟩,
      fun _ _ => ⟨hk.strap, hk.geometry, fun _ => hk.resetLine⟩, fun hw hg => hk.mfIn.trans ?_⟩
    cases i with
    | systemWrite mf a bs => exact absurd rfl (hw mf a bs)
    | memorySideGrant mf => exact absurd rfl (hg mf)
    | _ => rfl
  | true =>
    cases i with
    | powerOn n =>
      cases h
      exact ⟨rfl, fun hn => absurd rfl (hn n), fun hn => absurd rfl (hn n), fun _ _ => rfl⟩
    | resetLineAssert =>
      change execResetLineAssert s = .next t at h
      unfold execResetLineAssert at h
      split at h <;> cases h <;>
        exact ⟨rfl, fun _ => ⟨rfl, rfl, rfl⟩, fun _ _ => ⟨rfl, fun _ => id, fun hn => absurd rfl hn⟩, fun _ _ => rfl⟩
    | resetLineRelease n =>
      change execResetLineRelease n s = .next t at h
      unfold execResetLineRelease at h
      split at h
      · cases h
        have hk := releaseWrites_kept (releaseReset n s)
        exact ⟨hk.pending, fun _ => ⟨hk.us, hk.ms, hk.usInMs⟩, fun _ hn => absurd rfl (hn n), fun _ _ => hk.mfIn⟩
      · cases h
        exact ⟨rfl, fun _ => ⟨rfl, rfl, rfl⟩, fun _ hn => absurd rfl (hn n), fun _ _ => rfl⟩
    | _ => cases hi

end Sys2Proof.Machine
end

section
/-! The part while the reset line is asserted (R169): what a quiet part does at each command, and the obligation about it. -/

namespace Sys2Proof.Machine

open Sys2Proof.Safety

/-! ## A quiet memory path -/

/-- R169: no write of the part's own waits, none of its answers is awaited, and no listed or outstanding transaction is classed. -/
def PathQuiet (p : Path) : Prop :=
  p.queue = [] ∧ p.deferred = [] ∧ (∀ t ∈ p.list, t.held = false ∧ t.watch = .none) ∧
    (∀ o ∈ p.sysOut, o.watch = .none) ∧ ∀ o ∈ p.partOut, o.live = false

section Path

variable {s : State}

theorem quiet_path (h : Quiet s) : PathQuiet s.path := by
  obtain ⟨hqueue, hdeferred, hlist, hsys, hpart, -⟩ := h
  exact ⟨hqueue, hdeferred, hlist, hsys, hpart⟩

/-- A change of the memory path that leaves it quiet leaves the part quiet. -/
theorem quiet_modPath {f : Path → Path} (h : Quiet s) (hf : PathQuiet (f s.path)) : Quiet (modPath f s) := by
  obtain ⟨-, -, -, -, -, hrest⟩ := h
  obtain ⟨hqueue, hdeferred, hlist, hsys, hpart⟩ := hf
  exact ⟨hqueue, hdeferred, hlist, hsys, hpart, hrest⟩

/-! ## Transactions -/

theorem quiet_listTxn {t : SysTxn} (h : Quiet s) (hh : t.held = false) (hw : t.watch = .none) : Quiet (listTxn t s) := by
  obtain ⟨hqueue, hdeferred, hlist, hsys, hpart⟩ := quiet_path h
  refine quiet_modPath h ⟨hqueue, hdeferred, fun x hx => ?_, hsys, hpart⟩
  rcases List.mem_append.mp hx with hx | hx
  · exact hlist x hx
  · rw [List.mem_singleton.mp hx]; exact ⟨hh, hw⟩

/-- R169: a transaction accepted now is listed unexamined. -/
theorem quiet_acceptTxn (p : PortTxn) (h : Quiet s) (hr : s.resetLine = true) : Quiet (acceptTxn p s) := by
  unfold acceptTxn
  split
  · exact quiet_listTxn h rfl (by simp [watchNow, hr])
  · rw [if_pos hr]; exact quiet_listTxn h rfl rfl

theorem quiet_drainPort (ps : List PortTxn) (h : Quiet s) (hr : s.resetLine = true) : Quiet (drainPort ps s) := by
  induction ps generalizing s with
  | nil => exact quiet_modPath h (quiet_path h)
  | cons p ps ih =>
    unfold drainPort
    split
    · exact ih (quiet_acceptTxn p h hr) ((acceptTxn_kept p s).resetLine.trans hr)
    · exact quiet_modPath h (quiet_path h)

theorem quiet_presentTxn (a : Nat) (body : Body) (h : Quiet s) (hr : s.resetLine = true) : Quiet (presentTxn a body s) := by
  have hnumbered : Quiet (modPath (fun p => { p with nextId := p.nextId + 1 }) s) := quiet_modPath h (quiet_path h)
  unfold presentTxn
  simp only
  split
  · exact quiet_acceptTxn _ hnumbered hr
  · exact quiet_modPath hnumbered (quiet_path hnumbered)

theorem quiet_issueSystem {t : SysTxn} (h : Quiet s) (ht : t ∈ s.path.list) : Quiet (issueSystem t s) := by
  obtain ⟨hqueue, hdeferred, hlist, hsys, hpart⟩ := quiet_path h
  refine quiet_modPath h ⟨hqueue, hdeferred, fun x hx => hlist x (List.mem_of_mem_filter hx), fun o ho => ?_, hpart⟩
  rcases List.mem_append.mp ho with ho | ho
  · exact hsys o ho
  · rw [List.mem_singleton.mp ho]; exact (hlist t ht).2

theorem mem_of_firstEligible {before l : List SysTxn} {t : SysTxn} (h : firstEligible before l = some t) : t ∈ l := by
  induction l generalizing before with
  | nil => cases h
  | cons x xs ih =>
    unfold firstEligible at h
    split at h
    · cases h; exact List.mem_cons_self
    · exact List.mem_cons_of_mem x (ih h)

/-- With no write of its own the part gives the memory side to the system alone. -/
theorem quiet_grantMemorySide (h : Quiet s) (hr : s.resetLine = true) : Quiet (grantMemorySide s) := by
  have hqueue := (quiet_path h).1
  unfold grantMemorySide
  split
  · split
    · next t ht => exact quiet_drainPort _ (quiet_issueSystem h (mem_of_firstEligible ht)) hr
    · exact h
  · split
    · next e q hq => rw [hqueue] at hq; cases hq
    · exact h
  · exact h

/-- A read under way as the line is asserted acts on no block (log 13). -/
theorem quiet_answerId (id : Nat) (status : RespStatus) (data : List Word64) (h : Quiet s) :
    Quiet (answerId id status data s) := by
  obtain ⟨hqueue, hdeferred, hlist, hsys, hpart⟩ := quiet_path h
  unfold answerId
  split
  · next o ho =>
    have hpassed : Quiet (passBack o status data s) :=
      quiet_modPath h ⟨hqueue, hdeferred, hlist, fun x hx => hsys x (List.mem_of_mem_filter hx), hpart⟩
    have hread (t : State) : readReturned o t = t := by
      rw [readReturned, hsys o (List.mem_of_find?_eq_some ho)]
    unfold answerSystem
    simp only [hread, ite_self]
    split <;> exact hpassed
  · exact h

/-- The answer to a write made before the assertion is absorbed. -/
theorem quiet_execPartWriteResponse {id : Nat} {status : RespStatus} {t : State} (h : Quiet s)
    (ht : execPartWriteResponse id status s = .next t) : Quiet t := by
  obtain ⟨hqueue, hdeferred, hlist, hsys, hpart⟩ := quiet_path h
  unfold execPartWriteResponse at ht
  split at ht
  · next o ho =>
    cases ht
    unfold answerPart
    simp only [hpart o (List.mem_of_find?_eq_some ho)]
    exact quiet_modPath h ⟨hqueue, hdeferred, hlist, hsys, fun x hx => hpart x (List.mem_of_mem_filter hx)⟩
  · cases ht; exact h

end Path

/-! ## The other blocks -/

section Blocks

variable {s : State}

/-- A quiet channel: OFF, nothing captured or held, no track and no episode. -/
theorem quiet_chan (h : Quiet s) (c : Chan) :
    (s.chan c).record = ChanRecord.initial ∧ (s.chan c).capture = Capture.empty ∧ (s.chan c).held = [] := by
  obtain ⟨-, -, -, -, -, hchans, -⟩ := h
  obtain ⟨hrecord, hcapture, hheld, -⟩ := hchans c
  exact ⟨hrecord, hcapture, hheld⟩

/-- The other blocks of a quiet part. -/
theorem quiet_blocks (h : Quiet s) :
    s.engine.analysis = none ∧ s.ring = Ring.initial ∧ (∀ k : Strand, s.strands.get k = StrandState.initial) ∧
      s.status.snapshot = none := by
  obtain ⟨-, -, -, -, -, -, -, hengine, hring, hstrands, -, hsnapshot, -⟩ := h
  exact ⟨hengine, hring, hstrands, hsnapshot⟩

/-- No channel of a quiet part requests the engine. -/
theorem quiet_grantable (h : Quiet s) : grantable s = none := by
  have hnone (c : Chan) : requests s c = false := by simp [requests, (quiet_chan h c).2.1, Capture.empty]
  have hnext : nextChannel s = none := List.find?_eq_none.mpr fun c _ => by simp [hnone c]
  simp [grantable, hnext]

/-- A quiet ring writer has no slot to fill or to flush. -/
theorem quiet_ring_idle (h : Quiet s) : placeableSlot s = none ∧ flushableSlot s = none := by
  simp [placeableSlot, flushableSlot, (quiet_blocks h).2.1, Ring.initial]

theorem quiet_assertReset (s : State) : Quiet (assertReset s) := by
  have hchan (c : Chan) : (assertReset s).chan c = resetChannel (s.chan c) := by simp [State.chan, assertReset]
  refine ⟨rfl, rfl, ?_, ?_, ?_, fun c => ?_, rfl, rfl, rfl, fun k => ?_, rfl, rfl, fun c => ?_, rfl, rfl⟩
  · intro t ht
    obtain ⟨u, -, rfl⟩ := List.mem_map.mp ht
    exact ⟨rfl, rfl⟩
  · intro o ho
    obtain ⟨u, -, rfl⟩ := List.mem_map.mp ho
    rfl
  · intro o ho
    obtain ⟨u, -, rfl⟩ := List.mem_map.mp ho
    rfl
  · rw [hchan]; exact ⟨rfl, rfl, rfl, rfl, rfl, rfl, rfl⟩
  · simp [assertReset]
  · simp [assertReset, assertStatus, emptyLatched]

end Blocks

/-! ## Each command of a quiet part -/

/-- A command that is no reset keeps the part quiet while the line is asserted. -/
theorem quiet_exec {i : Instr} {s t : State} (hi : isReset i = false) (hq : Quiet s) (hr : s.resetLine = true)
    (h : exec i s = .next t) : Quiet t := by
  obtain ⟨hengine, hring, hstrands, hsnapshot⟩ := quiet_blocks hq
  have hsame {u : State} (hsu : Host.Outcome.next s = (.next u : Host.Outcome State Fault Refusal)) : Quiet u := by
    cases hsu; exact hq
  cases i with
  | powerOn n | resetLineRelease n => cases hi
  | resetLineAssert => cases hi
  | systemWrite mf a beats =>
    change execSystemWrite mf a beats s = _ at h
    unfold execSystemWrite presentWrite at h
    split at h
    · cases h; exact quiet_presentTxn _ _ hq hr
    · cases h
  | systemRead a n =>
    change execSystemRead a n s = _ at h
    unfold execSystemRead at h
    split at h
    · cases h; exact quiet_presentTxn _ _ hq hr
    · cases h
  | stagedWrite o beats =>
    change execStagedWrite o beats s = _ at h
    unfold execStagedWrite presentWrite at h
    split at h
    · cases h; exact quiet_presentTxn _ _ hq hr
    · cases h
  | apply | start | startReplay | stop | isolate | restart | flush | resetPart | unknownCommand =>
    cases h; exact quiet_presentTxn _ _ hq hr
  | batchTake id data | conditionWordRead id data => cases h; exact quiet_answerId id .ok data hq
  | readDataReturn id status data => cases h; exact quiet_answerId id status data hq
  | memorySideGrant mf => cases h; exact quiet_grantMemorySide (s := { s with mfIn := mf }) hq hr
  | partWriteResponse id status => exact quiet_execPartWriteResponse hq h
  | engineGrant =>
    refine hsame (Eq.trans ?_ h)
    simp only [exec, execEngineGrant, quiet_grantable hq]
  | analysisCompletion =>
    refine hsame (Eq.trans ?_ h)
    simp only [exec, execAnalysisCompletion, hengine]
  | holdTimerExpiry c e =>
    refine hsame (Eq.trans ?_ h)
    simp [exec, execHoldTimerExpiry, heldOf, (quiet_chan hq c).2.2]
  | stallTimerExpiry c =>
    refine hsame (Eq.trans ?_ h)
    simp only [exec, execStallTimerExpiry, (quiet_chan hq c).1, ChanRecord.initial]
  | abandonTimerExpiry c =>
    refine hsame (Eq.trans ?_ h)
    simp only [exec, execAbandonTimerExpiry, (quiet_chan hq c).1, ChanRecord.initial]
  | recordPlacement =>
    refine hsame (Eq.trans ?_ h)
    simp only [exec, execRecordPlacement, (quiet_ring_idle hq).1]
  | flushApply =>
    refine hsame (Eq.trans ?_ h)
    simp only [exec, execFlushApply, (quiet_ring_idle hq).2]
  | ringResetPartTake =>
    refine hsame (Eq.trans ?_ h)
    simp [exec, execRingResetPartTake, hring, Ring.initial]
  | batchAgeExpiry =>
    refine hsame (Eq.trans ?_ h)
    simp only [exec, execBatchAgeExpiry, hring, Ring.initial]
  | pulseEnd k =>
    refine hsame (Eq.trans ?_ h)
    simp only [exec, execPulseEnd, hstrands, StrandState.initial]
  | markExpiry k trigger =>
    refine hsame (Eq.trans ?_ h)
    simp [exec, execMarkExpiry, hstrands, StrandState.initial]
  | snapshotExpiry =>
    refine hsame (Eq.trans ?_ h)
    simp only [exec, execSnapshotExpiry, hsnapshot]

theorem quietUnderReset_exec {i : Instr} {s t : State} (hs : QuietUnderReset s) (h : exec i s = .next t) :
    QuietUnderReset t := by
  cases hi : isReset i with
  | false =>
    have hline : t.resetLine = s.resetLine := (exec_kept hi h).resetLine
    exact fun hr => quiet_exec hi (hs (hline ▸ hr)) (hline ▸ hr) h
  | true =>
    cases i with
    | powerOn n => cases h; exact fun hr => nomatch hr
    | resetLineAssert =>
      change execResetLineAssert s = .next t at h
      unfold execResetLineAssert at h
      split at h
      · cases h; exact hs
      · cases h; exact fun _ => quiet_assertReset s
    | resetLineRelease n =>
      change execResetLineRelease n s = .next t at h
      unfold execResetLineRelease at h
      split at h
      · cases h
        intro hr
        rw [(releaseWrites_kept (releaseReset n s)).resetLine] at hr
        cases hr
      · cases h; exact hs
    | _ => cases hi

/-- Settles O12: under reset nothing of a quiet part is due, and transactions pass through it unexamined. -/
theorem stepsKeepThePartQuietUnderReset : Obligations.StepsKeepThePartQuietUnderReset := by
  intro s t hs h
  unfold step at h
  split at h
  · cases h
    unfold tick
    split <;> exact hs
  · next i rest _ => exact quietUnderReset_exec (s := { s with pending := rest }) hs h

end Sys2Proof.Machine
end

section
/-! The step, the state after power-on, and the three resets (R37, R169, R183, R190). -/

namespace Sys2Proof.Machine

open Sys2Proof.Safety

/-! ## The step -/

/-- Settles O1: by the two arms of the step. -/
theorem stepRunsFrontCommand : Obligations.StepRunsFrontCommand := by
  refine ⟨fun i rest s hs => by rw [step, hs], fun s hs => ⟨tick s, by rw [step, hs], ?_⟩⟩
  unfold tick
  split
  case isTrue h => exact ⟨rfl, fun _ => ⟨rfl, rfl⟩, fun hge => absurd h (by omega), rfl⟩
  case isFalse h => exact ⟨rfl, fun hlt => absurd hlt h, fun _ => ⟨rfl, rfl⟩, rfl⟩

/-! ## The state after power-on -/

theorem chan_reset (c : Chan) : State.reset.chan c = Channel.initial := by
  simp [State.chan, State.reset, State.powerOn]

theorem strands_reset (k : Strand) : State.reset.strands.get k = StrandState.initial := by
  simp [State.reset, State.powerOn]

theorem words_reset (c : Chan) : State.reset.status.words.get c = CondWord.empty := by
  simp [State.reset, State.powerOn, Status.initial]

theorem counters_reset (c : Chan) : State.reset.status.counters.get c = ChanCounters.zero := by
  simp [State.reset, State.powerOn, Status.initial]

/-- Settles O3: the banks hold one value for every channel and strand, and each field is as the definitions give it. -/
theorem resetStateHoldsTheResetValues : Obligations.ResetStateHoldsTheResetValues := by
  refine ⟨rfl, rfl, fun c => ?_, rfl, rfl, rfl, rfl, rfl, rfl, rfl, rfl, rfl, rfl, rfl, rfl, fun k => ?_, rfl, rfl, rfl, rfl,
    rfl, rfl, rfl, rfl, rfl, rfl, rfl, rfl, rfl, rfl, rfl⟩
  · rw [chan_reset, words_reset, counters_reset]
    exact ⟨rfl, rfl, rfl, rfl, rfl, rfl, rfl, rfl, rfl, rfl, rfl, rfl, rfl, rfl, rfl, rfl, rfl, rfl, rfl, rfl, rfl, rfl, rfl,
      rfl⟩
  · rw [strands_reset]; exact ⟨rfl, rfl, rfl⟩

/-- Settles O4: block by block; the outgoing queue holds the 18 start-up writes, each of an address of its own. -/
theorem invariantsHoldAtReset : Obligations.InvariantsHoldAtReset := by
  refine ⟨powerOn_outgoingSound 0, ringInitial_recordsSound, fun k => ?_, fun c => ?_, fun c => ?_,
    statusInitial_attentionSound 0, ⟨rfl, fun c => ?_⟩, fun h => nomatch h⟩
  · rw [strands_reset]; exact marksSound_nil rfl
  · rw [chan_reset]; exact tracksSound_nil
  · rw [chan_reset]; exact channelInitial_pitchSound
  · rw [chan_reset]; exact ⟨rfl, rfl, rfl⟩

/-! ## The start-up writes -/

/-- R190, R198: the start-up record's bytes. -/
theorem startUpRecord_bytes (cause : StartUpCause) (n : BitVec 4) (resets : Nat) :
    startUpRecord cause n resets =
      startUpBytes (BitVec.ofNat 8 (causeCode cause)) n (min resets 65535) := rfl

theorem conditionWord_zero : conditionWord 0 = zeros 8 := by decide

/-- R185: the empty condition words as queued. -/
theorem emptyConditionWrites_eq (n : BitVec 4) :
    (emptyConditionWrites n).map (fun w => ({ kind := .word, addr := w.1, data := w.2 } : OutEntry)) =
      (List.range 17).map fun i =>
        { kind := .word, addr := 134217728 * n.toNat + (0x2040 + 8 * i), data := zeros 8 } := by
  simp only [emptyConditionWrites, List.map_map]
  exact List.map_congr_left fun i _ => by simp [setupBase, conditionAt, ← conditionWord_zero]

/-- Settles O13: POWER_ON's outcome is written out by its definition. -/
theorem powerOnCompletes : Obligations.PowerOnCompletes := by
  intro n s
  refine ⟨_, rfl, rfl, rfl, rfl, rfl, fun c => ?_, rfl, rfl, rfl, fun k => ?_, rfl, rfl, rfl, rfl, rfl, rfl, rfl, rfl, ?_⟩
  · simp [State.chan, State.powerOn]
  · simp [State.powerOn]
  · simp only [State.powerOn, powerOnWrites, List.map_cons, emptyConditionWrites_eq]
    rfl

/-! ## The reset line asserted -/

/-- Settles O14: the assertion changes of each transaction its holding and its classing alone. -/
theorem resetLineAssertCompletes : Obligations.ResetLineAssertCompletes := by
  intro s
  refine ⟨fun hr => ?_, fun hr => ⟨assertReset s, ?_, rfl, quiet_assertReset s, ?_, ?_, ?_, rfl, rfl, fun c => ?_, rfl, rfl,
    rfl, rfl, rfl, rfl⟩⟩
  · change execResetLineAssert s = _
    rw [execResetLineAssert, if_pos hr]
  · change execResetLineAssert s = _
    rw [execResetLineAssert, hr]
    rfl
  · simp [assertReset, assertPath, Function.comp_def]
  · simp [assertReset, assertPath, Function.comp_def]
  · simp [assertReset, assertPath, Function.comp_def]
  · simp [assertReset, assertStatus]

/-! ## The reset line released -/

/-- A word of a new address enters a queue that has room at its tail. -/
theorem offerWordTo_append {a : Nat} {d : List Byte} {p : Path} (ha : ∀ e ∈ p.queue, e.addr ≠ a) (hlen : p.queue.length < 32) :
    offerWordTo a d p = { p with queue := p.queue ++ [{ kind := .word, addr := a, data := d }] } := by
  have hany : p.queue.any (sameAddress a) = false :=
    List.any_eq_false.mpr fun e he => by simp [sameAddress, ha e he]
  rw [offerWordTo, hany, if_neg (by simp), if_pos hlen]

/-- Words of new, distinct addresses offered one after the other enter in their order. -/
theorem foldl_offerWord_path (f : Owner → Nat) (d : List Byte) (os : List Owner) (s : State)
    (hnodup : (os.map f).Nodup) (hlen : s.path.queue.length + os.length ≤ 32)
    (ha : ∀ e ∈ s.path.queue, ∀ o ∈ os, e.addr ≠ setupBase s.setup.strap + f o) :
    (os.foldl (fun t o => offerWord (f o) d t) s).path =
      { s.path with
        queue := s.path.queue ++ os.map fun o => { kind := .word, addr := setupBase s.setup.strap + f o, data := d } } := by
  induction os generalizing s with
  | nil => simp
  | cons o os ih =>
    simp only [List.map_cons, List.nodup_cons, List.length_cons] at hnodup hlen
    obtain ⟨hnew, hnodup⟩ := hnodup
    have hoffer : (offerWord (f o) d s).path =
        { s.path with
          queue := s.path.queue ++ [{ kind := .word, addr := setupBase s.setup.strap + f o, data := d }] } := by
      rw [offerWord_path]
      exact offerWordTo_append (fun e he => ha e he o List.mem_cons_self) (by omega)
    rw [List.foldl_cons, ih (offerWord (f o) d s) hnodup, hoffer]
    · simp
    · rw [hoffer]; simp; omega
    · intro e he x hx
      rw [hoffer] at he
      rcases List.mem_append.mp he with he | he
      · exact ha e he x (List.mem_cons_of_mem o hx)
      · rw [List.mem_singleton.mp he, offerWord_setup]
        intro hsame
        exact hnew (List.mem_map.mpr ⟨x, hx, by simp only at hsame; omega⟩)


theorem offerWord_eq (o : Nat) (d : List Byte) (s : State) :
    offerWord o d s = { s with path := (offerWord o d s).path } := rfl

/-- Offers change the memory path alone. -/
theorem foldl_offerWord_eq (f : Owner → Nat) (d : List Byte) (os : List Owner) (s : State) :
    os.foldl (fun t o => offerWord (f o) d t) s = { s with path := (os.foldl (fun t o => offerWord (f o) d t) s).path } := by
  induction os generalizing s with
  | nil => rfl
  | cons o os ih => rw [List.foldl_cons]; exact ih (offerWord (f o) d s)

/-- The release writes change the count of resets and the memory path. -/
theorem releaseWrites_eq (s : State) :
    releaseWrites s =
      { s with
        status := { s.status with resets := sat16 (s.status.resets + 1) }
        path := (releaseWrites s).path } := by
  have hconditions := foldl_offerWord_eq (fun o => conditionAt (ownerIndex o)) (conditionWord 0) allOwners
    (writeStartUp .resetLine s)
  have hlast := offerWord_eq attentionAt (attentionWord 0) (writeEmptyConditions (writeStartUp .resetLine s))
  exact hlast.trans (congrArg (fun u : State => { u with path := (releaseWrites s).path }) hconditions)

/-- R190: what the release queues, at the setup base of the straps. -/
def releaseQueue (n : BitVec 4) (resets : Nat) : List OutEntry :=
  { kind := .word, addr := setupBase n + startUpAt, data := startUpRecord .resetLine n resets } ::
    (allOwners.map fun o => { kind := .word, addr := setupBase n + conditionAt (ownerIndex o), data := conditionWord 0 }) ++
      [{ kind := .word, addr := setupBase n + attentionAt, data := attentionWord 0 }]

theorem writeStartUp_path {cause : StartUpCause} {s : State} (hq : s.path.queue = []) :
    (writeStartUp cause s).path =
      { s.path with
        queue := [{ kind := .word, addr := setupBase s.setup.strap + startUpAt
                    data := startUpRecord cause s.setup.strap (sat16 (s.status.resets + 1)) }] } := by
  have h := offerWordTo_append (a := setupBase s.setup.strap + startUpAt)
    (d := startUpRecord cause s.setup.strap (sat16 (s.status.resets + 1))) (p := s.path) (by simp [hq]) (by simp [hq])
  rw [hq] at h
  exact h

theorem ownerIndex_le (o : Owner) : ownerIndex o ≤ 16 := by
  cases o with
  | chan c => exact Nat.le_of_lt c.isLt
  | part => exact Nat.le_refl 16

theorem releaseWrites_path {s : State} (hq : s.path.queue = []) :
    (releaseWrites s).path =
      { s.path with queue := releaseQueue s.setup.strap (sat16 (s.status.resets + 1)) } := by
  have hfirst := writeStartUp_path (cause := .resetLine) hq
  have hconditions := foldl_offerWord_path (fun o => conditionAt (ownerIndex o)) (conditionWord 0) allOwners
    (writeStartUp .resetLine s) (by decide) (by simp [hfirst, allOwners, allChans]) (fun e he o _ => by
      have hle := ownerIndex_le o
      rw [hfirst] at he
      rw [List.mem_singleton.mp he]
      simp only [writeStartUp, modStatus_setup, offerWord_setup, startUpAt, conditionAt]
      omega)
  have hlast : ∀ e ∈ (writeEmptyConditions (writeStartUp .resetLine s)).path.queue,
      e.addr ≠ setupBase s.setup.strap + attentionAt := by
    intro e he
    rw [writeEmptyConditions, hconditions, hfirst] at he
    rcases List.mem_append.mp he with he | he
    · rw [List.mem_singleton.mp he]; simp [startUpAt, attentionAt]
    · obtain ⟨o, -, rfl⟩ := List.mem_map.mp he
      simp only [writeStartUp, modStatus_setup, offerWord_setup, attentionAt, conditionAt]
      omega
  have hsetup : (writeEmptyConditions (writeStartUp .resetLine s)).setup = s.setup := by
    rw [writeEmptyConditions, foldl_offerWord_eq]
    rfl
  have hroom : (writeEmptyConditions (writeStartUp .resetLine s)).path.queue.length < 32 := by
    rw [writeEmptyConditions, hconditions, hfirst]
    simp [show allOwners.length = 17 from rfl]
  rw [releaseWrites, offerWord_path, hsetup, offerWordTo_append hlast hroom,
    writeEmptyConditions, hconditions, hfirst]
  rfl

theorem attentionWord_zero : attentionWord 0 = zeros 8 := by decide

/-- R190, R185: the owners' condition words stand in the order of their numbers. -/
theorem releaseQueue_eq (n : BitVec 4) (resets : Nat) :
    releaseQueue n resets =
      { kind := .word, addr := 134217728 * n.toNat + 0x2100, data := startUpBytes 2 n (min resets 65535) } ::
        ((List.range 17).map fun i =>
            { kind := .word, addr := 134217728 * n.toNat + (0x2040 + 8 * i), data := zeros 8 }) ++
          [{ kind := .word, addr := 134217728 * n.toNat + 0x2008, data := zeros 8 }] := by
  have howners : List.range 17 = allOwners.map ownerIndex := by decide
  rw [howners, List.map_map, releaseQueue, conditionWord_zero, attentionWord_zero, startUpRecord_bytes]
  rfl

/-- Settles O15: the released part has nothing queued, so its writes stand in the order in which it makes them. -/
theorem resetLineReleaseCompletes : Obligations.ResetLineReleaseCompletes := by
  intro n s hr hq hd
  have hpath := releaseWrites_path (s := releaseReset n s) hq
  have hrest := releaseWrites_eq (releaseReset n s)
  refine ⟨releaseWrites (releaseReset n s), ?_, ?_, ?_, fun c => ?_, ?_, ?_, ?_, ?_, ?_, ?_⟩
  · change execResetLineRelease n s = _
    rw [execResetLineRelease, if_pos hr]
  · rw [hrest]; rfl
  · rw [hrest]; rfl
  · rw [hrest]
    simp only [State.chan, releaseReset, Bank16.get_all]
    exact ⟨rfl, rfl, rfl⟩
  · rw [hrest]; rfl
  · rw [hpath]; exact hd
  · have hmin : min (sat16 ((releaseReset n s).status.resets + 1)) 65535 = min (s.status.resets + 1) 65535 := by
      simp [sat16, releaseReset]
    rw [hpath, releaseQueue_eq, hmin]
    rfl
  · rw [hrest]; rfl
  · rw [hrest]; rfl
  · rw [hpath]; rfl

end Sys2Proof.Machine
end

section
/-! The system side (R159 to R162): transactions refused, listed, waiting, eligible and answered. -/

namespace Sys2Proof.Machine

open Sys2Proof.Safety

/-! ## Transactions presented -/

theorem execSystemWrite_wellFormed {mf : BitVec 8} {addr : BitVec 40} {beats : List Beat} {s : State} (ha : addr.toNat % 8 = 0)
    (h1 : 1 ≤ beats.length) (h16 : beats.length ≤ 16) :
    exec (.systemWrite mf addr beats) s = .next (presentTxn addr.toNat (.write beats) { s with mfIn := mf }) := by
  change presentWrite _ _ _ = _
  rw [presentWrite, if_pos ⟨ha, h1, h16⟩]

theorem execSystemRead_wellFormed {addr : BitVec 40} {n : Nat} {s : State} (ha : addr.toNat % 8 = 0) (h1 : 1 ≤ n)
    (h16 : n ≤ 16) : exec (.systemRead addr n) s = .next (presentTxn addr.toNat (.read n) s) := by
  change execSystemRead addr n s = _
  rw [execSystemRead, if_pos ⟨ha, h1, h16⟩]

/-- R159: a transaction that finds room and no other waiting is accepted under the next number. -/
theorem presentTxn_room {a : Nat} {body : Body} {s : State} (hport : s.path.port = []) (hroom : notHeldCount s.path < 8) :
    presentTxn a body s =
      acceptTxn { id := s.path.nextId, addr := a, body := body } (modPath (fun p => { p with nextId := p.nextId + 1 }) s) := by
  rw [presentTxn, if_pos ⟨hport, hroom⟩]

/-- R159: a transaction waits at the port while acceptance is withheld (log 4). -/
theorem presentTxn_waits {a : Nat} {body : Body} {s : State} (h : s.path.port ≠ [] ∨ 8 ≤ notHeldCount s.path) :
    presentTxn a body s =
      { s with
        path := { s.path with
          nextId := s.path.nextId + 1
          port := s.path.port ++ [{ id := s.path.nextId, addr := a, body := body }] } } := by
  have hwithheld : ¬ (s.path.port = [] ∧ notHeldCount s.path < 8) := fun hr => by
    rcases h with h | h
    · exact h hr.1
    · exact absurd hr.2 (by omega)
  rw [presentTxn, if_neg hwithheld]
  rfl

/-- R160: what a transaction is classed against, spelt out. -/
theorem watchNow_eq (s : State) :
    watchNow s = if s.resetLine = true then .none else if s.setup.geometry = none then .setupOnly else .all := by
  unfold watchNow
  cases s.resetLine with
  | true => rfl
  | false => cases s.setup.geometry <;> rfl

/-- Settles O17: a read accepted is listed. -/
theorem systemReadEntersTheList : Obligations.SystemReadEntersTheList := by
  intro addr n s ha h1 h16 hport hroom
  rw [execSystemRead_wellFormed ha h1 h16, presentTxn_room hport hroom, ← watchNow_eq]
  rfl

/-- Settles O18: by the second arm of the port's test. -/
theorem transactionsWaitWhileTheListIsFull : Obligations.TransactionsWaitWhileTheListIsFull := by
  intro mf addr beats n s ha h
  refine ⟨fun h1 h16 => ?_, fun h1 h16 => ?_⟩
  · rw [execSystemWrite_wellFormed ha h1 h16, presentTxn_waits (s := { s with mfIn := mf }) h]
  · rw [execSystemRead_wellFormed ha h1 h16, presentTxn_waits h]

/-- What is no transaction of section 9.1's table is refused (log 26). -/
theorem presentWrite_refused {a : Nat} {beats : List Beat} {s : State} (h : a % 8 ≠ 0 ∨ beats.length = 0 ∨ 16 < beats.length) :
    presentWrite a beats s = .refused .notATransaction := by
  rw [presentWrite, if_neg (by omega)]

/-- Settles O19: the setup base is a multiple of 8, so a staged write is aligned where its offset is. -/
theorem illFormedTransactionsAreRefused : Obligations.IllFormedTransactionsAreRefused := by
  refine ⟨fun mf addr beats s h => presentWrite_refused h, fun addr n s h => ?_, fun offset beats s h => ?_⟩
  · change execSystemRead addr n s = _
    rw [execSystemRead, if_neg (by omega)]
  · refine presentWrite_refused ?_
    unfold setupBase
    omega

/-! ## The eligible transaction (R162) -/

/-- R162: the search, with `seen` the transactions passed over. -/
theorem firstEligible_iff (seen l : List SysTxn) (x : SysTxn) :
    firstEligible seen l = some x ↔
      ∃ before after, l = before ++ x :: after ∧ x.held = false ∧ (∀ y ∈ seen ++ before, overlaps x y = false) ∧
        ∀ (p r : List SysTxn) (y : SysTxn), before = p ++ y :: r →
          y.held = true ∨ ∃ z ∈ seen ++ p, overlaps y z = true := by
  induction l generalizing seen with
  | nil => simp [firstEligible]
  | cons t ts ih =>
    unfold firstEligible
    split
    case isTrue ht =>
      obtain ⟨hfree, hclear⟩ := ht
      have hclear' : ∀ y ∈ seen, overlaps t y = false := fun y hy => by simpa using List.any_eq_false.mp hclear y hy
      constructor
      · rintro ⟨⟩
        exact ⟨[], ts, rfl, hfree, by simpa using hclear', fun p r y hp => by simp at hp⟩
      · rintro ⟨before, after, hl, -, -, hpassed⟩
        cases before with
        | nil => rw [List.nil_append, List.cons.injEq] at hl; rw [hl.1]
        | cons b bs =>
          rw [List.cons_append, List.cons.injEq] at hl
          obtain ⟨rfl, -⟩ := hl
          rcases hpassed [] bs t rfl with hheld | ⟨z, hz, hover⟩
          · rw [hfree] at hheld; cases hheld
          · rw [hclear' z (by simpa using hz)] at hover; cases hover
    case isFalse ht =>
      have hblocked : t.held = true ∨ ∃ z ∈ seen, overlaps t z = true := by
        by_contra hno
        rw [not_or, not_exists] at hno
        refine ht ⟨by simpa using hno.1, List.any_eq_false.mpr fun z hz => ?_⟩
        exact fun hover => hno.2 z ⟨hz, hover⟩
      rw [ih]
      constructor
      · rintro ⟨before, after, rfl, hfree, hclear, hpassed⟩
        refine ⟨t :: before, after, rfl, hfree, by simpa using hclear, fun p r y hp => ?_⟩
        cases p with
        | nil =>
          rw [List.nil_append, List.cons.injEq] at hp
          rw [← hp.1]
          simpa using hblocked
        | cons q qs =>
          rw [List.cons_append, List.cons.injEq] at hp
          rw [← hp.1]
          simpa using hpassed qs r y hp.2
      · rintro ⟨before, after, hl, hfree, hclear, hpassed⟩
        cases before with
        | nil =>
          rw [List.nil_append, List.cons.injEq] at hl
          rw [hl.1] at hblocked
          rcases hblocked with hheld | ⟨z, hz, hover⟩
          · rw [hfree] at hheld; cases hheld
          · rw [hclear z (by simpa using hz)] at hover; cases hover
        | cons b bs =>
          rw [List.cons_append, List.cons.injEq] at hl
          obtain ⟨rfl, rfl⟩ := hl
          refine ⟨bs, after, rfl, hfree, by simpa using hclear, fun p r y hp => ?_⟩
          simpa using hpassed (t :: p) r y (by rw [hp, List.cons_append])

/-- Settles O23, by the search from the list's start. -/
theorem theEarliestEligibleTransactionIsIssued : Obligations.TheEarliestEligibleTransactionIsIssued := by
  intro p x
  change firstEligible [] p.list = some x ↔ _
  rw [firstEligible_iff]
  simp only [List.nil_append]

/-! ## Answers to the system side (R161) -/

theorem answerId_of_find {id : Nat} {status : RespStatus} {data : List Word64} {o : SysOut} {s : State}
    (h : s.path.sysOut.find? (fun o => decide (o.id = id)) = some o) :
    answerId id status data s = answerSystem o status data s := by
  rw [answerId, h]

theorem answerSystem_read {o : SysOut} {data : List Word64} {s : State} (h : o.isRead = true) :
    answerSystem o .ok data s = readReturned o (passBack o .ok data s) := by
  simp [answerSystem, h]

/-- An answer that no block acts on is passed back and does no more. -/
theorem answerSystem_passedBack {o : SysOut} {status : RespStatus} {data : List Word64} {s : State}
    (h : status = .error ∨ o.isRead = false ∨ readReturned o (passBack o status data s) = passBack o status data s) :
    answerSystem o status data s = passBack o status data s := by
  unfold answerSystem
  cases status with
  | error => rfl
  | ok =>
    rcases h with h | h | h
    · cases h
    · simp [h]
    · simp [h]

/-- Settles O26: a read that covers no condition word and no slot's first beat acts on no block. -/
theorem readDataReturnPassesTheAnswerBack : Obligations.ReadDataReturnPassesTheAnswerBack := by
  intro id status data s
  refine ⟨fun o ho h => ?_, fun hnone => ?_⟩
  · have hread : status = .error ∨ o.isRead = false ∨
        readReturned o (passBack o status data s) = passBack o status data s := by
      rcases h with h | h | h | ⟨hshown, h⟩
      · exact .inl h
      · exact .inr (.inl h)
      · exact .inr (.inr (by rw [readReturned, h]))
      · refine .inr (.inr ?_)
        unfold readReturned
        rcases h with h | h
        · simp [h, hshown, clearCovered]
        · have hcovered : coveredSlot (passBack o status data s) o.addr o.beats = none := h
          cases o.watch <;> simp [hshown, clearCovered, acknowledge, hcovered]
    change Host.Outcome.next (answerId id status data s) = _
    rw [answerId_of_find ho, answerSystem_passedBack hread]
    rfl
  · change Host.Outcome.next (answerId id status data s) = _
    rw [answerId, hnone]

/-! ## A READY slot taken (R138) -/

/-- R138: with the slots apart, a read of a slot's first beat covers that slot alone. -/
theorem coveredSlot_eq {s : State} {a n i : Nat} {g : Geometry} (hg : s.setup.geometry = some g) (hb : 4 ≤ g.b) (hn : n ≤ 16)
    (hi : i < s.ring.slots.length) (hlo : a ≤ g.ringBase + i * g.b * 32) (hhi : g.ringBase + i * g.b * 32 + 8 ≤ a + 8 * n) :
    coveredSlot s a n = some i := by
  have haddr (j : Nat) : slotAddr s j = g.ringBase + j * g.b * 32 := by
    simp [slotAddr, placeAddr, heldRingBase, heldB, hg]
  unfold coveredSlot
  rw [List.find?_range_eq_some]
  simp only [haddr]
  refine ⟨by simp; omega, by simpa using hi, fun j hj => ?_⟩
  have hgap : j * g.b * 32 + g.b * 32 ≤ i * g.b * 32 := by
    have : (j + 1) * g.b * 32 ≤ i * g.b * 32 := by gcongr; omega
    linarith [Nat.succ_mul j g.b]
  simp
  omega

/-- R140: a FILLING slot with no place assigned keeps a pending flush for queued records alone. -/
theorem discardFlush_noPlaces {r : Ring} {i : Nat} (hf : r.fill = .filling i) (hp : placesOf r i = 0) :
    discardFlush r = { r with flushPending := r.flushPending && !r.queue.isEmpty } := by
  obtain ⟨queue, _, _, fill, _, _, _, _, _, _, _, _⟩ := r
  obtain rfl : fill = .filling i := hf
  cases queue <;> simp [discardFlush, hp]

/-- Settles O27: with 4 places or more a slot, no two slots' first beats lie within a read of 16 beats. -/
theorem batchTakeFreesTheReadySlot : Obligations.BatchTakeFreesTheReadySlot := by
  intro id i data o g s hg hb ho hread hwatch hshown hbeats hi hlo hhi hreset
  have hcovered : coveredSlot (passBack o .ok data s) o.addr o.beats = some i :=
    coveredSlot_eq (s := passBack o .ok data s) hg hb hbeats hi hlo hhi
  have htaken : answerId id .ok data s = modRing (takenRing i) (passBack o .ok data s) := by
    rw [answerId_of_find ho, answerSystem_read hread, readReturned, hwatch, hshown]
    simp only [clearCovered, List.foldl_nil, acknowledge, hcovered]
    rw [takeSlot, if_neg (by simp [passBack, hreset])]
  refine ⟨modRing (takenRing i) (passBack o .ok data s), congrArg Host.Outcome.next htaken, rfl, rfl, rfl, rfl, rfl,
    fun hs => ?_, fun hs hf => ?_, fun hs hf => ?_⟩
  · change takenRing i s.ring = _
    unfold takenRing
    split
    · next h => exact absurd h hs
    · rfl
    · rfl
  · change takenRing i s.ring = _
    rw [takenRing, hs]
    exact if_neg hf
  · change takenRing i s.ring = _
    have hplaces : placesOf (setSlot i { state := .filling, places := 0 } s.ring) i = 0 := by simp [placesOf, setSlot, hi]
    rw [takenRing, hs]
    exact (if_pos hf).trans (discardFlush_noPlaces rfl hplaces)

end Sys2Proof.Machine
end

section
/-! The mark scheduler's and the ring writer's own events (R134, R140, R141, R143, R151, R152). -/

namespace Sys2Proof.Machine

open Sys2Proof.Safety

/-! ## The status unit under a latched condition -/

theorem refreshAttention_words (s : State) : (refreshAttention s).status.words = s.status.words := by
  unfold refreshAttention
  split
  · rfl
  · rw [offerWord_status, modStatus_status]

/-- A part-wide set that changes leaves every channel's word. -/
theorem setLatched_part_words (v : BitVec 16) (s : State) : (setLatched .part v s).status.words = s.status.words := by
  unfold setLatched
  split
  · rfl
  · rw [refreshAttention_words]
    rfl

theorem latchPart_words (k : PartCond) (s : State) : (latchPart k s).status.words = s.status.words :=
  setLatched_part_words _ s

/-! ## Timers -/

theorem timerDue_iff {now : Word32} {t : MsTimer} : timerDue now t = true ↔ t.length ≤ (now - t.start).toNat := decide_eq_true_iff

/-- Settles O50: the end is reached, or it is not. -/
theorem pulseEndsAtItsEnd : Obligations.PulseEndsAtItsEnd := by
  intro k e s he
  have hexec : exec (.pulseEnd k) s =
      if atOrAhead s.ms e then .next (modStrand k (fun t => { t with pulse := none }) s) else .next s := by
    change execPulseEnd k s = _
    rw [execPulseEnd, he]
  refine ⟨fun h => ?_, fun h => ?_⟩
  · rw [hexec, if_pos (atOrAhead_iff.mpr h)]
    rfl
  · rw [hexec, if_neg fun h' => by have := atOrAhead_iff.mp h'; omega]

/-! ## Marks that expire (R152) -/

theorem settleMerge_rest (k : StrandState) :
    (settleMerge k).queue = k.queue ∧ (settleMerge k).lastCount = k.lastCount ∧ (settleMerge k).pulse = k.pulse := by
  unfold settleMerge
  split
  · split <;> exact ⟨rfl, rfl, rfl⟩
  · exact ⟨rfl, rfl, rfl⟩

/-- Settles O51: the entry named is one of those that have expired. -/
theorem expiredMarksLeaveTheQueue : Obligations.ExpiredMarksLeaveTheQueue := by
  intro k m s hm hexp
  have hdue : (s.strands.get k).queue.any (markExpired s.ms m.trigger) = true :=
    List.any_eq_true.mpr ⟨m, hm, by simpa [markExpired, atOrAhead_iff] using hexp⟩
  obtain ⟨u, hu⟩ : ∃ u, u = modStrand k
      (fun t => settleMerge { t with queue := t.queue.filter fun x => !markExpired s.ms m.trigger x }) s := ⟨_, rfl⟩
  have hexec : exec (.markExpiry k m.trigger) s =
      .next (latchPart .markExpired (modPartCounters (fun c => { c with marksExpired := sat16 (c.marksExpired + 1) }) u)) := by
    change execMarkExpiry k m.trigger s = _
    rw [execMarkExpiry, if_pos hdue, hu]
  have hoffers := latchPart_offersOnly .markExpired
    (modPartCounters (fun c => { c with marksExpired := sat16 (c.marksExpired + 1) }) u)
  have hstrand : u.strands.get k = settleMerge { s.strands.get k with
      queue := (s.strands.get k).queue.filter fun x => !markExpired s.ms m.trigger x } := by
    rw [hu, modStrand_strands, Bank4.get_set_same]
  obtain ⟨hqueue, hlast, hpulse⟩ := settleMerge_rest { s.strands.get k with
      queue := (s.strands.get k).queue.filter fun x => !markExpired s.ms m.trigger x }
  have hstrands := hoffers.strands.trans (modPartCounters_strands u _)
  refine ⟨_, hexec, ?_, ?_, ?_, fun j hj => ?_, hoffers.chans.trans (by rw [hu]; rfl), hoffers.ring.trans (by rw [hu]; rfl),
    hoffers.partCounters.trans (by rw [hu]; rfl), (latchPart_latched _ _).trans (by rw [hu]; rfl),
    (latchPart_words _ _).trans (by rw [hu]; rfl)⟩
  · rw [hstrands, hstrand, hqueue]
    rfl
  · rw [hstrands, hstrand, hlast]
  · rw [hstrands, hstrand, hpulse]
  · rw [hstrands, hu, modStrand_strands, Bank4.get_set_other _ _ hj]

/-! ## Places and the held ring (R129) -/

theorem heldB_of_geometry {s : State} {g : Geometry} (hg : s.setup.geometry = some g) : heldB s = g.b := by simp [heldB, hg]

theorem placeAddr_of_geometry {s : State} {g : Geometry} (hg : s.setup.geometry = some g) (i k : Nat) :
    placeAddr s i k = g.ringBase + i * g.b * 32 + k * 32 := by
  simp [placeAddr, heldRingBase, heldB, hg]

theorem admitsRecord_iff {p : Path} : admitsRecord p = true ↔ p.queue.length < 24 := decide_eq_true_iff

/-- R134: the slot that can take a record is the FILLING one, with a place left and room on the memory path. -/
theorem placeableSlot_eq_some {s : State} {i : Nat} :
    placeableSlot s = some i ↔
      s.ring.fill = .filling i ∧ placesOf s.ring i < heldB s ∧ s.ring.resetWait = false ∧ s.path.queue.length < 24 := by
  unfold placeableSlot
  split
  · next j hj =>
    rw [hj, ← admitsRecord_iff]
    constructor
    · intro h
      split at h
      · next hc => obtain rfl : j = i := Option.some.inj h; exact ⟨rfl, hc⟩
      · cases h
    · rintro ⟨⟨⟩, hc⟩
      exact if_pos hc
  · next j hj => simp [hj]
  · next hj => simp [hj]

/-- R132: the GAP record of an open loss episode. -/
def gapRecords : Option Loss → List Record
  | none => []
  | some l => [.gap l.count l.first l.last]

/-- R132: the ring after its GAP record has taken a freed entry. -/
theorem gapTakes_eq (r : Ring) :
    gapTakes r =
      { r with
        queue := r.queue ++ gapRecords r.loss
        loss := none } := by
  obtain ⟨_, loss, _, _, _, _, _, _, _, _, _, _⟩ := r
  cases loss <;> simp [gapTakes, gapRecords]

/-- Settles O46: the placement's slot, address and ring, each by its equation. -/
theorem recordPlacementWritesTheHeadRecord : Obligations.RecordPlacementWritesTheHeadRecord := by
  intro i r q g s hg hfill hplace hwait hroom hqueue
  have hslot : placeableSlot s = some i :=
    placeableSlot_eq_some.mpr ⟨hfill, by rwa [heldB_of_geometry hg], hwait, hroom⟩
  have hexec : exec .recordPlacement s = .next (placeRecord i r s) := by
    change execRecordPlacement s = _
    rw [execRecordPlacement, hslot, hqueue]
  rw [hexec, placeRecord, placeAddr_of_geometry hg, heldB_of_geometry hg]
  simp only [modRing, modPath, putRecordWrite, placedRing, gapTakes_eq, setSlot, hqueue, List.drop_one, List.tail_cons]
  rfl

/-! ## Flushing (R140) -/

/-- R140: the FILLER records offered while room lasts are written in ascending place order; the rest await admission. -/
theorem offerFillers_eq (i n : Nat) (s : State) {g : Geometry} (hg : s.setup.geometry = some g) :
    offerFillers i n s =
      { s with
        path := { s.path with
          queue := s.path.queue ++ (List.range (min n (24 - s.path.queue.length))).map fun m =>
            { kind := .record, addr := g.ringBase + i * g.b * 32 + (g.b - (n - m)) * 32, data := recordBytes .filler } }
        ring := { s.ring with
          fillers := n - min n (24 - s.path.queue.length)
          outstanding := s.ring.outstanding + min n (24 - s.path.queue.length) } } := by
  induction n generalizing s with
  | zero => simp [offerFillers, modRing]
  | succ n ih =>
    unfold offerFillers
    by_cases hroom : s.path.queue.length < 24
    · have hmin : min (n + 1) (24 - s.path.queue.length) = min n (24 - (s.path.queue.length + 1)) + 1 := by omega
      rw [if_pos (admitsRecord_iff.mpr hroom), ih, placeAddr_of_geometry hg, heldB_of_geometry hg, hmin]
      case hg => exact hg
      simp only [modRing, modPath, putRecordWrite, List.length_append, List.length_singleton, List.append_assoc,
        List.range_succ_eq_map, List.map_cons, List.map_map, List.singleton_append, Nat.sub_zero, Nat.add_sub_add_right,
        Nat.add_assoc, Nat.add_comm 1, Function.comp_def, Nat.succ_eq_add_one]
    · have hmin : min (n + 1) (24 - s.path.queue.length) = 0 := by omega
      rw [if_neg (by rwa [admitsRecord_iff]), hmin]
      simp [modRing]

theorem execFlushApply_filling {s : State} {i : Nat} {g : Geometry} (hg : s.setup.geometry = some g)
    (hfill : s.ring.fill = .filling i) (hpend : s.ring.flushPending = true) (hqueue : s.ring.queue = [])
    (hlo : 1 ≤ placesOf s.ring i) (hhi : placesOf s.ring i < g.b) (hwait : s.ring.resetWait = false) :
    execFlushApply s = .next (applyFlush i s) := by
  have hslot : flushableSlot s = some i := by
    rw [flushableSlot, hfill]
    exact if_pos ⟨hpend, hqueue, hlo, by rwa [heldB_of_geometry hg], hwait⟩
  rw [execFlushApply, hslot]

/-- Settles O47: FILLER records with room for all of them, and with room for none. -/
theorem flushApplyFillsTheSlot : Obligations.FlushApplyFillsTheSlot := by
  intro i g s hg hfill hpend hqueue hlo hhi hwait
  have hexec : exec .flushApply s = .next (applyFlush i s) := execFlushApply_filling hg hfill hpend hqueue hlo hhi hwait
  refine ⟨fun hroom => ?_, fun hfull => ?_⟩
  · have hmin : min (g.b - placesOf s.ring i) (24 - s.path.queue.length) = g.b - placesOf s.ring i := by omega
    rw [hexec, applyFlush, offerFillers_eq (g := g), heldB_of_geometry hg]
    case hg => exact hg
    have hfillers : (List.range (g.b - placesOf s.ring i)).map (fun m => ({ kind := .record, addr := g.ringBase + i * g.b * 32 + (g.b - (g.b - placesOf s.ring i - m)) * 32, data := recordBytes .filler } : OutEntry)) = (List.range (g.b - placesOf s.ring i)).map fun m => { kind := .record, addr := g.ringBase + i * g.b * 32 + (placesOf s.ring i + m) * 32, data := 4 :: zeros 31 } := by
      refine List.map_congr_left fun m hm => ?_
      rw [List.mem_range] at hm
      rw [show g.b - (g.b - placesOf s.ring i - m) = placesOf s.ring i + m by omega]
      rfl
    simp only [modRing, hmin, hfillers, setSlot, Nat.sub_self]
  · have hmin : min (g.b - placesOf s.ring i) (24 - s.path.queue.length) = 0 := by omega
    rw [hexec, applyFlush, offerFillers_eq (g := g), heldB_of_geometry hg]
    case hg => exact hg
    simp only [modRing, hmin, setSlot, List.range_zero, List.map_nil, List.append_nil, Nat.sub_zero, Nat.add_zero]

end Sys2Proof.Machine
end

section
/-! The ring writer's timer, its READY slots and RESET_PART (R135, R136, R141, R143). -/

namespace Sys2Proof.Machine

open Sys2Proof.Safety

/-! ## The batch age timer (R141) -/

theorem requestFlushOn_eq {found : Ring} {s : State} (hwait : s.ring.resetWait = false) :
    requestFlushOn found s =
      modRing
        (fun r => { r with flushPending := r.flushPending || (ringBlocked found || recordsAwait (heldB s) found) }) s := by
  rw [requestFlushOn, if_neg (Bool.eq_false_iff.mp hwait)]
  cases ringBlocked found || recordsAwait (heldB s) found
  · simp [modRing]
  · simp [modRing]

theorem placesOf_set (i : Nat) (sl : Slot) (l : List Slot) :
    (((l.set i sl)[i]?).map Slot.places).getD 0 = if i < l.length then sl.places else 0 := by
  by_cases hi : i < l.length <;> simp [hi]

/-- R134: the ring after a placement, its queue, its FILLING slot and the places assigned there. -/
theorem placedRing_parts {now : Word32} {b i k : Nat} (r : Ring) :
    (placedRing now b i k r).queue =
        r.queue.drop 1 ++ gapRecords r.loss ∧
      (placedRing now b i k r).fill = r.fill ∧
      placesOf (placedRing now b i k r) i = if i < r.slots.length then k + 1 else 0 := by
  simp only [placedRing, gapTakes_eq, setSlot, placesOf, placesOf_set, and_self]

/-- R139: the ring that the placement of the B-th record leaves has records waiting exactly if its queue holds one. -/
theorem keepsFlush_placedRing {now : Word32} {i b : Nat} {r : Ring} {x : Record} {q : List Record}
    (hfill : r.fill = .filling i) (hplaces : placesOf r i + 1 = b) (hqueue : r.queue = x :: q) :
    (ringBlocked (placedRing now b i (placesOf r i) r) || recordsAwait b (placedRing now b i (placesOf r i) r)) =
      (!q.isEmpty || r.loss.isSome) := by
  obtain ⟨hq, hf, hp⟩ := placedRing_parts (now := now) (b := b) (i := i) (k := placesOf r i) r
  have hfull : ¬ (1 ≤ placesOf (placedRing now b i (placesOf r i) r) i ∧
      placesOf (placedRing now b i (placesOf r i) r) i < b) := by
    rw [hp]
    split <;> omega
  rw [Bool.eq_iff_iff, keepsFlush_iff, hq, hf, hfill, hqueue]
  simp only [FillPoint.filling.injEq, exists_eq_left', reduceCtorEq, exists_false, false_or, hfull, or_false]
  cases r.loss <;> simp [gapRecords]

theorem heldB_modRing (f : Ring → Ring) (s : State) : heldB (modRing f s) = heldB s := rfl

theorem execBatchAgeExpiry_due {s : State} {tm : MsTimer} (hage : s.ring.age = some tm)
    (hdue : tm.length ≤ (s.ms - tm.start).toNat) :
    execBatchAgeExpiry s = .next (requestFlushOn (ringAtExpiry s) (modRing (fun r => { r with age := none }) s)) := by
  rw [execBatchAgeExpiry, hage]
  exact if_pos (timerDue_iff.mpr hdue)

/-- Settles O49: the expiry alone, the expiry that comes with the B-th placement, and the one before its time. -/
theorem batchAgeExpiryAsksForAFlush : Obligations.BatchAgeExpiryAsksForAFlush := by
  intro tm s hage
  refine ⟨fun hdue hwait halone => ?_, fun i r q hdue hwait hfill hplaces hqueue hroom => ?_, fun hearly => ?_⟩
  · have hfound : ringAtExpiry s = s.ring := ringAtExpiry_alone s fun i hi => by
      obtain ⟨hfill, -, -, hroom⟩ := placeableSlot_eq_some.mp hi
      by_cases hb : placesOf s.ring i + 1 = heldB s
      · exact (halone i hfill hb).imp_right fun hfull => absurd hroom (by omega)
      · exact .inr hb
    change execBatchAgeExpiry s = _
    rw [execBatchAgeExpiry_due hage hdue, hfound, requestFlushOn_eq (by exact hwait)]
    simp only [modRing, Bool.or_assoc]
    rfl
  · have hslot : placeableSlot s = some i := placeableSlot_eq_some.mpr ⟨hfill, by omega, hwait, hroom⟩
    have hkeeps := keepsFlush_placedRing (now := s.ms) hfill hplaces hqueue
    change execBatchAgeExpiry s = _
    rw [execBatchAgeExpiry_due hage hdue, ringAtExpiry_tie s i hslot (by simp [hqueue]) hplaces,
      requestFlushOn_eq (by exact hwait)]
    simp only [heldB_modRing, hkeeps]
    simp only [modRing, Bool.or_assoc]
  · change execBatchAgeExpiry s = _
    rw [execBatchAgeExpiry, hage]
    exact if_neg fun h => by have := timerDue_iff.mp h; omega

/-! ## Words that wait while a condition is latched -/

theorem wordOffered_modStatus {o : Nat} {d : List Byte} {s : State} (f : Status → Status) (h : WordOffered o d s) :
    WordOffered o d (modStatus f s) := h

theorem wordOffered_refreshAttention {o : Nat} {d : List Byte} {s : State} (ho : o ≠ attentionAt) (h : WordOffered o d s) :
    WordOffered o d (refreshAttention s) := by
  unfold refreshAttention
  split
  · exact h
  · exact wordOffered_offerWord_other _ ho (wordOffered_modStatus _ h)

/-- A word that is neither a condition word nor the summary still waits after a latched set has changed. -/
theorem wordOffered_setLatched {o : Nat} {d : List Byte} {s : State} (w : Owner) (v : BitVec 16) (ho : o ≠ attentionAt)
    (hc : o ≠ conditionAt (ownerIndex w)) (h : WordOffered o d s) : WordOffered o d (setLatched w v s) := by
  unfold setLatched
  split
  · exact h
  · exact wordOffered_refreshAttention ho (wordOffered_offerWord_other _ hc (wordOffered_modStatus _ h))

theorem wordOffered_latchPart {o : Nat} {d : List Byte} {s : State} (k : PartCond) (ho : o ≠ attentionAt)
    (hc : o ≠ conditionAt 16) (h : WordOffered o d s) : WordOffered o d (latchPart k s) :=
  wordOffered_setLatched .part _ ho hc h

/-! ## RESET_PART at the ring writer (R143, R182) -/

theorem ringTakesReset_rest (s : State) :
    OffersOnly (modRing resetRing s) (ringTakesReset s) ∧
      (ringTakesReset s).status.part.latched = s.status.part.latched &&& ~~~(2 : BitVec 16) ∧
      WordOffered 0x2010 (zeros 8) (ringTakesReset s) := by
  refine ⟨(offerWord_offersOnly _ _ _).trans (setLatched_offersOnly _ _ _), ?_, ?_⟩
  · exact congrArg CondWord.latched (condWordOf_setLatched_same .part _ _)
  · exact wordOffered_setLatched .part _ (by decide) (by decide) (wordOffered_offerWord ringIndexAt (ringIndexWord 0) _)

/-- R182: the third part writes the start-up record and ends the command; no block's state changes. -/
theorem finishReset_rest {r : Running} {s : State} (hr : s.setup.command = .inProgress r) :
    (finishReset s).ring = s.ring ∧ (finishReset s).chans = s.chans ∧
      (finishReset s).status = { s.status with resets := min (s.status.resets + 1) 65535 } ∧
      (finishReset s).setup.command = .ready ∧
      WordOffered 0x2100 (startUpBytes 3 s.setup.strap (min (s.status.resets + 1) 65535)) (finishReset s) ∧
      WordOffered 0x2000
        (commandStatusWord r.tag r.code .done r.isPartial (decide (1 ≤ r.clamped)) r.geometryHeld 0 r.clamped)
        (finishReset s) ∧
      ∀ (d : List Byte), WordOffered 0x2010 d s → WordOffered 0x2010 d (finishReset s) := by
  have hend := endCommand_rest r .done 0 (writeStartUp .command s)
  rw [finishReset, hr]
  have hafter {o : Nat} {d : List Byte} (ho : o < 0x2400) (hne : o ≠ 0x2000) (h : WordOffered o d (writeStartUp .command s)) :
      WordOffered o d (endCommand r .done 0 (writeStartUp .command s)) :=
    wordOffered_offerBlocks ho (wordOffered_offerWord_other _ hne h)
  refine ⟨hend.ring, hend.chans, endCommand_status _ _ _ _, congrArg Setup.command hend.setup, ?_,
    wordOffered_endCommand _ _ _ _, fun d h => hafter (by decide) (by decide) ?_⟩
  · refine hafter (by decide) (by decide) ?_
    have hbytes : startUpRecord .command s.setup.strap (sat16 (s.status.resets + 1)) =
        startUpBytes 3 s.setup.strap (min (s.status.resets + 1) 65535) := by
      rw [startUpRecord_bytes, sat16, min_assoc, min_self]
      rfl
    rw [← hbytes]
    exact wordOffered_offerWord startUpAt _ _
  · exact wordOffered_offerWord_other _ (by decide) h

/-- Settles O48: the ring writer's part, then the end of the command. -/
theorem ringTakesResetPart : Obligations.RingTakesResetPart := by
  intro r s hwait hout hcommand
  have hexec : exec .ringResetPartTake s = .next (finishReset (ringTakesReset s)) := if_pos ⟨hwait, hout⟩
  obtain ⟨htakes, hlatched, hindex⟩ := ringTakesReset_rest s
  have hsetup : (ringTakesReset s).setup = s.setup := htakes.setup
  have hresets : (ringTakesReset s).status.resets = s.status.resets := htakes.resets
  obtain ⟨hring, hchans, hstatus, hready, hstart, hdone, hword⟩ :=
    finishReset_rest (s := ringTakesReset s) ((congrArg Setup.command hsetup).trans hcommand)
  rw [hsetup, hresets] at hstart
  refine ⟨_, hexec, hring.trans htakes.ring, hchans.trans htakes.chans, ?_, ?_, hready, hword _ hindex, hstart, hdone⟩
  · rw [hstatus, hresets]
  · rw [hstatus, hlatched]

end Sys2Proof.Machine
end

section
/-! Answers on the memory side and the part's own writes (R135, R136, R140, R164 to R168, R185, R186). -/

namespace Sys2Proof.Machine

open Sys2Proof.Safety

/-! ## A condition word read (R186) -/

theorem ownerOf_ownerIndex (w : Owner) : ownerOf (ownerIndex w) = w := by
  cases w with
  | chan c => simp [ownerOf, ownerIndex]
  | part => simp [ownerOf, ownerIndex]

/-- R185: a latched set that changes has its condition word offered. -/
theorem wordOffered_setLatched_own {o : Owner} {v : BitVec 16} {s : State} (h : v ≠ (condWordOf s.status o).latched) :
    WordOffered (conditionAt (ownerIndex o)) (conditionWord v) (setLatched o v s) := by
  rw [setLatched, if_neg h]
  refine wordOffered_refreshAttention ?_ (wordOffered_offerWord _ _ _)
  simp only [conditionAt, attentionAt]
  omega

theorem conditionWord_bytes (v : BitVec 16) :
    conditionWord v = [BitVec.ofNat 8 v.toNat, BitVec.ofNat 8 (v.toNat / 256)] ++ zeros 6 := rfl

theorem coveredSlot_congr {s t : State} (hring : t.ring = s.ring) (hsetup : t.setup = s.setup) (a n : Nat) :
    coveredSlot t a n = coveredSlot s a n := by
  have haddr (i : Nat) : slotAddr t i = slotAddr s i := by simp only [slotAddr, placeAddr, heldRingBase, heldB, hsetup]
  simp only [coveredSlot, hring, haddr]

/-- R138, R186: a read that covers one condition word and no slot clears what the word showed. -/
theorem readReturned_one {o : SysOut} {w : Owner} {pub : BitVec 16} {s : State} (hshown : o.shown = [(ownerIndex w, pub)])
    (hwatch : o.watch ≠ .none) (hslot : o.watch = .setupOnly ∨ coveredSlot s o.addr o.beats = none) :
    readReturned o s = clearShown w pub s := by
  have hcleared : clearCovered o.shown s = clearShown w pub s := by
    simp only [hshown, clearCovered, List.foldl_cons, List.foldl_nil, ownerOf_ownerIndex]
  have hoffers := clearShown_offersOnly w pub s
  have hcovered := coveredSlot_congr hoffers.ring hoffers.setup o.addr o.beats
  unfold readReturned
  rw [hcleared]
  rcases hslot with h | h
  · rw [h]
  · cases hw : o.watch with
    | none => exact absurd hw hwatch
    | setupOnly => rfl
    | all => simp only [acknowledge, hcovered, h]

/-- Settles O28: the read's one effect is R186's. -/
theorem conditionWordReadClearsWhatItShowed : Obligations.ConditionWordReadClearsWhatItShowed := by
  intro id data o w pub s ho hread hwatch hshown hslot
  have hexec : exec (.conditionWordRead id data) s = .next (clearShown w pub (passBack o .ok data s)) := by
    change Host.Outcome.next (answerId id .ok data s) = _
    rw [answerId_of_find ho, answerSystem_read hread, readReturned_one (s := passBack o .ok data s) hshown hwatch hslot]
  have hoffers := clearShown_offersOnly w pub (passBack o .ok data s)
  have hlatched : (condWordOf (clearShown w pub (passBack o .ok data s)).status w).latched =
      (condWordOf s.status w).latched &&& ~~~(pub &&& ~~~presentSet s w) :=
    congrArg CondWord.latched (condWordOf_setLatched_same w _ _)
  refine ⟨_, hexec, hoffers.sysLog, hoffers.chans, hoffers.ring, hoffers.strands, hoffers.engine, hlatched,
    fun v hv => condWordOf_setLatched_other _ _ hv, hoffers.counters, fun hchange => ?_⟩
  rw [hlatched] at hchange ⊢
  rw [← conditionWord_bytes]
  exact wordOffered_setLatched_own hchange

/-! ## Answers to the part's writes (R168, R185) -/

theorem execPartWriteResponse_of_find {id : Nat} {status : RespStatus} {o : PartOut} {s : State}
    (h : s.path.partOut.find? (fun o => decide (o.id = id)) = some o) :
    exec (.partWriteResponse id status) s = .next (answerPart o status s) := by
  change execPartWriteResponse id status s = _
  rw [execPartWriteResponse, h]

/-- R168: a write is no longer outstanding. -/
def responded (o : PartOut) (s : State) : State :=
  modPath (fun p => { p with partOut := p.partOut.filter fun u => decide (u.id ≠ o.id) }) s

theorem answerPart_absorbed {o : PartOut} (h : o.live = false) (status : RespStatus) (s : State) :
    answerPart o status s = responded o s := by
  simp [answerPart, h, responded]

theorem answerPart_ok {o : PartOut} (h : o.live = true) (s : State) :
    answerPart o .ok s = tellProducer o .ok (responded o s) := by
  simp [answerPart, h, responded]

theorem answerPart_error {o : PartOut} (h : o.live = true) (s : State) :
    answerPart o .error s = tellProducer o .error (countMemoryError (responded o s)) := by
  simp [answerPart, h, responded]

/-- R168: an ERROR is counted and MEMORY_ERROR latched, and no block is changed. -/
theorem countMemoryError_rest (s : State) :
    OffersOnly (modPartCounters (fun k => { k with memoryErrors := sat16 (k.memoryErrors + 1) }) s) (countMemoryError s) ∧
      (countMemoryError s).status.part.latched = s.status.part.latched ||| 64 ∧
      (countMemoryError s).status.words = s.status.words :=
  ⟨latchPart_offersOnly _ _, latchPart_latched _ _, latchPart_words _ _⟩

/-- R185: the condition words lie at addresses of their own. -/
theorem ownerAt_conditionWord {s : State} {addr : Nat} (w : Owner)
    (h : addr = setupBase s.setup.strap + conditionAt (ownerIndex w)) : ownerAt s addr = some w := by
  have hsame (v : Owner) :
      addr = setupBase s.setup.strap + conditionAt (ownerIndex v) ↔ v = w := by
    constructor
    · intro hv
      have hindex : ownerIndex v = ownerIndex w := by
        simp only [conditionAt] at h hv
        omega
      rw [← ownerOf_ownerIndex v, hindex, ownerOf_ownerIndex]
    · rintro rfl
      exact h
  have hmem : w ∈ allOwners := by
    cases w with
    | chan c => fin_cases c <;> decide
    | part => decide
  unfold ownerAt
  cases hfind : allOwners.find? fun v => decide (addr = setupBase s.setup.strap + conditionAt (ownerIndex v)) with
  | none => exact absurd h (by simpa using List.find?_eq_none.mp hfind w hmem)
  | some v => rw [(hsame v).mp (by simpa using List.find?_some hfind)]

theorem ownerAt_elsewhere {s : State} {addr : Nat}
    (h : ∀ w : Owner, addr ≠ setupBase s.setup.strap + conditionAt (ownerIndex w)) : ownerAt s addr = none := by
  unfold ownerAt
  rw [List.find?_eq_none]
  simpa using fun w _ => h w

/-- R135: a RECORD write answered that does not complete a full slot. -/
theorem recordWriteDone_partial {s : State}
    (h : s.ring.resetWait = true ∨ s.ring.fillers ≠ 0 ∨ 2 ≤ s.ring.outstanding ∨
      ∀ i, s.ring.fill = .filling i → placesOf s.ring i ≠ heldB s) :
    recordWriteDone s = modRing (fun r => { r with outstanding := r.outstanding - 1 }) s := by
  have hnone : readySlot (modRing (fun r => { r with outstanding := r.outstanding - 1 }) s) = none := by
    unfold readySlot
    split
    · next i hi =>
      refine if_neg ?_
      rintro ⟨hplaces, hfillers, hout, hwait⟩
      rcases h with h | h | h | h
      · exact absurd hwait (by simp [h])
      · exact h hfillers
      · have hout' : s.ring.outstanding - 1 = 0 := hout
        omega
      · exact h i hi hplaces
    · rfl
    · rfl
  simp only [recordWriteDone, hnone]

/-- Settles O29: the response absorbed, to a STATUS write, to a WORD write and to a RECORD write. -/
theorem partWriteResponseCompletesTheWrite : Obligations.PartWriteResponseCompletesTheWrite := by
  intro id status o s ho
  rw [execPartWriteResponse_of_find ho]
  refine ⟨fun h => ?_, fun w hlive hkind hok haddr => ?_, fun hlive hkind hpartial => ⟨fun hok => ?_, fun herr => ?_⟩,
    fun hlive hkind herr => ?_⟩
  · rcases h with hdead | ⟨hkind, rfl⟩ | ⟨hkind, rfl, haddr⟩
    · rw [answerPart_absorbed hdead]
      rfl
    · cases hlive : o.live
      · rw [answerPart_absorbed hlive]
        rfl
      · rw [answerPart_ok hlive, tellProducer, hkind]
        rfl
    · cases hlive : o.live
      · rw [answerPart_absorbed hlive]
        rfl
      · have hnone : ownerAt (responded o s) o.addr = none := ownerAt_elsewhere haddr
        rw [answerPart_ok hlive, tellProducer, hkind]
        simp only [publishWord, hnone]
        rfl
  · subst hok
    have hfound : ownerAt (responded o s) o.addr = some w := ownerAt_conditionWord w haddr
    have hresult : answerPart o .ok s =
        modStatus (fun st => setCondWord w (publish o (condWordOf st w)) st) (responded o s) := by
      rw [answerPart_ok hlive, tellProducer, hkind]
      simp only [publishWord, hfound]
    refine ⟨_, congrArg Host.Outcome.next hresult, rfl, rfl, rfl, rfl, ?_, fun v hv => ?_⟩
    · rw [modStatus_status, condWordOf_setCondWord_same]
      rfl
    · rw [modStatus_status, condWordOf_setCondWord_other _ _ hv]
      rfl
  · subst hok
    rw [answerPart_ok hlive, tellProducer, hkind]
    exact congrArg Host.Outcome.next (recordWriteDone_partial (s := responded o s) hpartial)
  · subst herr
    obtain ⟨hoffers, hlatched, hwords⟩ := countMemoryError_rest (responded o s)
    have hring : (countMemoryError (responded o s)).ring = s.ring := hoffers.ring
    have hheld : heldB (countMemoryError (responded o s)) = heldB s := congrArg (fun u : Setup => (u.geometry.map Geometry.b).getD 0) hoffers.setup
    have hresult : answerPart o .error s =
        modRing (fun r => { r with outstanding := r.outstanding - 1 }) (countMemoryError (responded o s)) := by
      rw [answerPart_error hlive, tellProducer, hkind]
      exact recordWriteDone_partial (by rw [hring, hheld]; exact hpartial)
    refine ⟨_, congrArg Host.Outcome.next hresult, hoffers.chans, ?_, hoffers.strands, hoffers.engine, hoffers.setup,
      hoffers.partOut, hoffers.list, hoffers.partCounters, hlatched, hwords⟩
    rw [modRing_ring, hring]
  · subst herr
    obtain ⟨hoffers, hlatched, hwords⟩ := countMemoryError_rest (responded o s)
    have hresult : answerPart o .error s = countMemoryError (responded o s) := by
      rw [answerPart_error hlive, tellProducer]
      cases hk : o.kind with
      | record => exact absurd hk hkind
      | status => rfl
      | word => rfl
    exact ⟨_, congrArg Host.Outcome.next hresult, hoffers.chans, hoffers.ring, hoffers.partOut, hoffers.partCounters,
      hlatched, hwords⟩

/-! ## A slot that becomes READY (R135 to R137) -/

theorem ringIndexWord_eq (n : Word32) : ringIndexWord n = leBytes 4 n.toNat ++ zeros 4 := by
  have hn : n.toNat < 4294967296 := n.isLt
  rw [ringIndexWord, field, show min n.toNat (256 ^ 4 - 1) = n.toNat by omega]

/-- R137: RING_BLOCKED is latched where the ring is blocked; the ring is as it was. -/
theorem latchIfBlocked_rest (s : State) :
    OffersOnly s (latchIfBlocked s) ∧
      (latchIfBlocked s).status.part.latched = s.status.part.latched ||| (if ringBlocked s.ring then 2 else 0) ∧
      ∀ d, WordOffered 0x2010 d s → WordOffered 0x2010 d (latchIfBlocked s) := by
  unfold latchIfBlocked
  split
  · exact ⟨latchPart_offersOnly _ s, latchPart_latched _ s, fun d h => wordOffered_latchPart _ (by decide) (by decide) h⟩
  · exact ⟨.refl s, by simp, fun d h => h⟩

/-- R136: a slot made READY, the ring moved on, the ring index word offered and BATCH_READY latched. -/
theorem slotReady_rest (i b : Nat) (s : State) {r : Ring}
    (hr : r = advanceFill i { setSlot i { state := .ready, places := b } s.ring with index := s.ring.index + 1 }) :
    (slotReady i b s).chans = s.chans ∧ (slotReady i b s).ring = r ∧
      WordOffered 0x2010 (leBytes 4 (s.ring.index + 1).toNat ++ zeros 4) (slotReady i b s) ∧
      (slotReady i b s).status.part.latched = s.status.part.latched ||| 1 ||| (if ringBlocked r then 2 else 0) := by
  obtain ⟨u, hu⟩ : ∃ u, u = modRing (fun r => { setSlot i { state := .ready, places := b } r with index := r.index + 1 }) s :=
    ⟨_, rfl⟩
  have hlatch := latchPart_offersOnly .batchReady (offerWord ringIndexAt (ringIndexWord u.ring.index) u)
  have hlatched := latchPart_latched .batchReady (offerWord ringIndexAt (ringIndexWord u.ring.index) u)
  have hword : WordOffered 0x2010 (leBytes 4 (s.ring.index + 1).toNat ++ zeros 4)
      (latchPart .batchReady (offerWord ringIndexAt (ringIndexWord u.ring.index) u)) := by
    rw [← ringIndexWord_eq, hu]
    exact wordOffered_latchPart _ (by decide) (by decide) (wordOffered_offerWord _ _ _)
  obtain ⟨v, hv⟩ : ∃ v, v = latchPart .batchReady (offerWord ringIndexAt (ringIndexWord u.ring.index) u) := ⟨_, rfl⟩
  rw [← hv] at hlatch hlatched hword
  have hring : (modRing (advanceFill i) v).ring = r := by
    rw [modRing_ring, hlatch.ring, hu, hr]
    rfl
  have hready : slotReady i b s = latchIfBlocked (modRing (advanceFill i) v) := by rw [hv, hu]; rfl
  obtain ⟨hrest, hblocked, hoffered⟩ := latchIfBlocked_rest (modRing (advanceFill i) v)
  rw [hready]
  refine ⟨hrest.chans.trans (hlatch.chans.trans (by rw [hu]; rfl)), hrest.ring.trans hring, hoffered _ hword, ?_⟩
  rw [hblocked, hring]
  refine congrArg (· ||| _) (hlatched.trans ?_)
  rw [hu]
  rfl

/-- R136: past a READY slot a FREE one becomes FILLING, with no place assigned. -/
theorem advanceFill_free {i : Nat} {r : Ring} (hlen : 0 < r.slots.length)
    (h : slotStateOf r ((i + 1) % r.slots.length) = .free) :
    advanceFill i r =
      { r with
        slots := r.slots.set ((i + 1) % r.slots.length) { state := .filling, places := 0 }
        fill := .filling ((i + 1) % r.slots.length)
        flushPending := r.flushPending && !r.queue.isEmpty } := by
  have hj : (i + 1) % r.slots.length < r.slots.length := Nat.mod_lt _ hlen
  simp only [advanceFill, h]
  exact discardFlush_noPlaces rfl (by simp [placesOf, setSlot, hj])

/-- R136: past a READY slot another READY one blocks the ring. -/
theorem advanceFill_ready {i : Nat} {r : Ring} (h : slotStateOf r ((i + 1) % r.slots.length) = .ready) :
    advanceFill i r = { r with fill := .blocked ((i + 1) % r.slots.length) } := by
  simp only [advanceFill, h]

/-- R135: the last RECORD write of a full FILLING slot makes it READY. -/
theorem recordWriteDone_last {i : Nat} {s : State} (hfill : s.ring.fill = .filling i) (hplaces : placesOf s.ring i = heldB s)
    (hfillers : s.ring.fillers = 0) (hout : s.ring.outstanding = 1) (hwait : s.ring.resetWait = false) :
    recordWriteDone s = slotReady i (heldB s) (modRing (fun r => { r with outstanding := 0 }) s) := by
  have hdone : modRing (fun r => { r with outstanding := r.outstanding - 1 }) s =
      modRing (fun r => { r with outstanding := 0 }) s := by
    simp only [modRing, hout]
  have hslot : readySlot (modRing (fun r => { r with outstanding := 0 }) s) = some i := by
    simp only [readySlot, modRing_ring, hfill]
    exact if_pos ⟨hplaces, hfillers, trivial, hwait⟩
  simp only [recordWriteDone, hdone, hslot, heldB_modRing]

/-- The state in which the block that made a write is told of its completion (R168). -/
def toldState (o : PartOut) (status : RespStatus) (s : State) : State :=
  match status with
  | .ok => responded o s
  | .error => countMemoryError (responded o s)

theorem answerPart_record {o : PartOut} (hlive : o.live = true) (hkind : o.kind = .record) (status : RespStatus) (s : State) :
    answerPart o status s = recordWriteDone (toldState o status s) := by
  cases status with
  | ok => rw [answerPart_ok hlive, tellProducer, hkind]; rfl
  | error => rw [answerPart_error hlive, tellProducer, hkind]; rfl

/-- R168: what the status of a response adds to the part-wide latched set. -/
def errorBits : RespStatus → BitVec 16
  | .ok => 0
  | .error => 64

theorem toldState_rest (o : PartOut) (status : RespStatus) (s : State) :
    (toldState o status s).chans = s.chans ∧ (toldState o status s).ring = s.ring ∧ (toldState o status s).setup = s.setup ∧
      (toldState o status s).status.part.latched =
        s.status.part.latched ||| errorBits status := by
  cases status with
  | ok => exact ⟨rfl, rfl, rfl, (BitVec.or_zero).symm⟩
  | error =>
    obtain ⟨hoffers, hlatched, -⟩ := countMemoryError_rest (responded o s)
    exact ⟨hoffers.chans, hoffers.ring, hoffers.setup, hlatched⟩

/-- Conditions are latched in any order. -/
theorem latched_or_bits (x e : BitVec 16) : x ||| e ||| 1 ||| 0 = x ||| 1 ||| e ∧ x ||| e ||| 1 ||| 2 = x ||| 3 ||| e := by
  have h3 : (3 : BitVec 16) = 1 ||| 2 := by decide
  refine ⟨?_, ?_⟩
  · change x ||| e ||| 1 ||| 0#16 = _
    rw [BitVec.or_zero]
    ac_rfl
  · rw [h3]
    ac_rfl

/-- Settles O30: the slot becomes READY, and the ring moves to the next one by its state. -/
theorem theLastRecordResponseMakesTheSlotReady : Obligations.TheLastRecordResponseMakesTheSlotReady := by
  intro id i status o g s ho hlive hkind hg hfill hi hlen hplaces hfillers hout hwait
  obtain ⟨hchans, hring, hsetup, hlatched⟩ := toldState_rest o status s
  obtain ⟨u, hu⟩ : ∃ u, u = toldState o status s := ⟨_, rfl⟩
  rw [← hu] at hchans hring hsetup hlatched
  have hB : heldB u = g.b := heldB_of_geometry (by rw [hsetup, hg])
  have hexec : exec (.partWriteResponse id status) s =
      .next (slotReady i g.b (modRing (fun r => { r with outstanding := 0 }) u)) := by
    rw [execPartWriteResponse_of_find ho, answerPart_record hlive hkind, ← hu, ← hB,
      recordWriteDone_last (by rw [hring, hfill]) (by rw [hring, hB, hplaces]) (by rw [hring, hfillers])
        (by rw [hring, hout]) (by rw [hring, hwait])]
  obtain ⟨r, hr⟩ : ∃ r, r = { setSlot i { state := .ready, places := g.b } { s.ring with outstanding := 0 } with
      index := s.ring.index + 1 } := ⟨_, rfl⟩
  have hrlen : r.slots.length = s.ring.slots.length := by simp [hr, setSlot]
  have hne : i ≠ (i + 1) % s.ring.slots.length := by
    rcases Nat.lt_or_ge (i + 1) s.ring.slots.length with h | h
    · rw [Nat.mod_eq_of_lt h]; omega
    · rw [show i + 1 = s.ring.slots.length by omega, Nat.mod_self]; omega
  have hnext : slotStateOf r ((i + 1) % r.slots.length) = slotStateOf s.ring ((i + 1) % s.ring.slots.length) := by
    rw [hrlen, hr]
    simp only [slotStateOf, setSlot, List.getElem?_set_ne hne]
  obtain ⟨hchans', hring', hword, hlatched'⟩ :=
    slotReady_rest i g.b (modRing (fun r => { r with outstanding := 0 }) u) (r := advanceFill i r) (by
      rw [hr, modRing_ring, hring])
  rw [modRing_ring, hring] at hword
  rw [modRing_status, hlatched] at hlatched'
  refine ⟨_, hexec, hchans'.trans hchans, hword, fun hfree => ⟨?_, ?_⟩, fun hready => ⟨?_, ?_⟩⟩
  · rw [hring', advanceFill_free (by omega) (hnext.trans hfree), hrlen, hr]
    rfl
  · rw [hlatched', advanceFill_free (by omega) (hnext.trans hfree)]
    exact (latched_or_bits _ _).1
  · rw [hring', advanceFill_ready (hnext.trans hready), hrlen, hr]
    rfl
  · rw [hlatched', advanceFill_ready (hnext.trans hready)]
    exact (latched_or_bits _ _).2

end Sys2Proof.Machine
end

section
/-! The memory side granted to the part (R140, R164 to R167). -/

namespace Sys2Proof.Machine

open Sys2Proof.Safety

/-- R167: the arbiter gives the part the memory side where it asks alone, and in its turn while 24 or more of its writes wait. -/
theorem grantedSide_part {p : Path} (hq : p.queue ≠ [])
    (h : eligibleTxn p = none ∨ (24 ≤ p.queue.length ∧ p.lastSide = .system)) : grantedSide p = some .part := by
  have hsome : p.queue.isEmpty = false := by simpa using hq
  unfold grantedSide
  rcases h with h | ⟨hlen, hside⟩
  · rw [h, hsome]
    rfl
  · rw [hsome]
    cases (eligibleTxn p).isSome with
    | false => rfl
    | true =>
      rw [hside]
      exact if_neg (by omega)

/-- R140: FILLER records offered change the outgoing writes queued and the ring writer alone. -/
theorem offerFillers_rest (i n : Nat) (s : State) :
    ∃ q r, offerFillers i n s = { s with path := { s.path with queue := q }, ring := r } := by
  induction n generalizing s with
  | zero => exact ⟨s.path.queue, _, rfl⟩
  | succ n ih =>
    unfold offerFillers
    split
    · obtain ⟨q, r, h⟩ := ih (modRing (fun r => { r with outstanding := r.outstanding + 1 })
        (modPath (putRecordWrite (placeAddr s i (heldB s - (n + 1))) (recordBytes .filler)) s))
      exact ⟨q, r, h⟩
    · exact ⟨s.path.queue, _, rfl⟩

theorem retryFillers_rest (s : State) : ∃ q r, retryFillers s = { s with path := { s.path with queue := q }, ring := r } := by
  unfold retryFillers
  split
  · split
    · exact ⟨s.path.queue, s.ring, rfl⟩
    · exact offerFillers_rest _ _ s
  · exact ⟨s.path.queue, s.ring, rfl⟩
  · exact ⟨s.path.queue, s.ring, rfl⟩

theorem retryFillers_none {s : State} (h : s.ring.fillers = 0) : retryFillers s = s := by
  unfold retryFillers
  split
  · split
    · rfl
    · rw [h, offerFillers]
      simp only [modRing, ← h]
  · rfl
  · rfl

/-- R140, R143: nothing is offered where no slot is FILLING or RESET_PART awaits the ring writer. -/
theorem retryFillers_stopped {s : State} (h : s.ring.resetWait = true ∨ ∀ i, s.ring.fill ≠ .filling i) : retryFillers s = s := by
  unfold retryFillers
  split
  · next i hi =>
    rcases h with h | h
    · rw [h]
      rfl
    · exact absurd hi (h i)
  · rfl
  · rfl

theorem retryFillers_filling {s : State} {i : Nat} (hfill : s.ring.fill = .filling i) (hwait : s.ring.resetWait = false) :
    retryFillers s = offerFillers i s.ring.fillers s := by
  rw [retryFillers, hfill]
  exact if_neg (by simp [hwait])

/-- Settles O25: the head is issued, deferred content enters, and FILLER records are offered again. -/
theorem grantIssuesThePartsHeadWrite : Obligations.GrantIssuesThePartsHeadWrite := by
  intro mf e q s hqueue hside
  obtain ⟨u, hu⟩ : ∃ u, u = modPath (issuePartTo e) { s with mfIn := mf } := ⟨_, rfl⟩
  have hexec : exec (.memorySideGrant mf) s = .next (retryFillers u) := by
    change Host.Outcome.next (grantMemorySide { s with mfIn := mf }) = _
    have hgranted : grantedSide s.path = some .part := grantedSide_part (by simp [hqueue]) hside
    simp only [grantMemorySide, hgranted, hqueue]
    rw [issuePart, hu]
  have hpath : u.path = enterDeferred
      { s.path with
        queue := q
        partOut := s.path.partOut ++ [{ id := s.path.nextId, kind := e.kind, addr := e.addr, data := e.data, live := true }]
        nextId := s.path.nextId + 1
        lastSide := .part
        memLog := s.path.memLog ++ [.fromPart s.path.nextId e] } := by
    rw [hu, modPath_path, issuePartTo, hqueue]
    rfl
  have hring : u.ring = s.ring := by rw [hu]; rfl
  have hgeometry : u.setup.geometry = s.setup.geometry := by rw [hu]; rfl
  have hentered : u.path.lastSide = .part ∧ u.path.memLog = s.path.memLog ++ [.fromPart s.path.nextId e] ∧
      u.path.partOut = s.path.partOut ++
        [{ id := s.path.nextId, kind := e.kind, addr := e.addr, data := e.data, live := true }] ∧
      u.path.list = s.path.list := by
    rw [hpath]
    unfold enterDeferred
    split <;> exact ⟨rfl, rfl, rfl, rfl⟩
  have hundeferred (hd : s.path.deferred = []) : u.path.queue = q ∧ u.path.deferred = [] := by
    rw [hpath, enterDeferred]
    simp only [hd, and_self]
  obtain ⟨hlast, hlog, hout, hlist⟩ := hentered
  obtain ⟨q', r', hretry⟩ := retryFillers_rest u
  refine ⟨_, hexec, by rw [hretry]; exact hlast, by rw [hretry]; exact hlog, by rw [hretry]; exact hout,
    by rw [hretry]; exact hlist, by rw [hretry, hu]; rfl, by rw [hretry, hu]; rfl, fun hnone => ?_,
    fun hd => ⟨fun hstopped => ?_, fun i n g hfill hwait hg hn => ?_⟩⟩
  · rw [retryFillers_none (by rw [hring, hnone])]
    refine ⟨hring, ?_⟩
    cases hd : s.path.deferred with
    | nil => exact hundeferred hd
    | cons x rest =>
      rw [hpath, enterDeferred]
      simp only [hd, and_self]
  · rw [retryFillers_stopped (by rw [hring]; exact hstopped)]
    exact ⟨hring, hundeferred hd⟩
  · obtain ⟨huqueue, hudeferred⟩ := hundeferred hd
    rw [retryFillers_filling (by rw [hring, hfill]) (by rw [hring, hwait]), offerFillers_eq (g := g)]
    case hg => rw [hgeometry, hg]
    simp only [hring, huqueue, hudeferred, ← hn, true_and]
    exact ⟨rfl, trivial⟩

end Sys2Proof.Machine
end

section
/-! The classifier (R118 to R123, R131): what a closure makes of its channel, its strand, the record queue and the status unit. -/

namespace Sys2Proof.Machine

open Sys2Proof.Safety

/-! ## Operations that read no channel -/

/-- R187: the summary takes the value `v`; if that is a change, its word is offered. -/
def summaryTakes (v : BitVec 17) (s : State) : State :=
  if v = s.status.summary then s
  else offerWord attentionAt (attentionWord v) (modStatus (fun st => { st with summary := v }) s)

theorem refreshAttention_eq (s : State) : refreshAttention s = summaryTakes (attentionOf s.status) s := by
  unfold refreshAttention summaryTakes
  simp only [modStatus]

section ReadNoChannel

variable (c : Chan) (f : Channel → Channel) (s : State)

theorem offerWord_modChan (o : Nat) (d : List Byte) : offerWord o d (modChan c f s) = modChan c f (offerWord o d s) := rfl

theorem modStatus_modChan (g : Status → Status) : modStatus g (modChan c f s) = modChan c f (modStatus g s) := rfl

theorem modPartCounters_modChan (g : PartCounters → PartCounters) :
    modPartCounters g (modChan c f s) = modChan c f (modPartCounters g s) := rfl

theorem refreshAttention_modChan : refreshAttention (modChan c f s) = modChan c f (refreshAttention s) := by
  rw [refreshAttention_eq, refreshAttention_eq, modChan_status]
  generalize attentionOf s.status = v
  unfold summaryTakes
  rw [modChan_status]
  split <;> rfl

theorem setLatched_modChan (o : Owner) (v : BitVec 16) : setLatched o v (modChan c f s) = modChan c f (setLatched o v s) := by
  unfold setLatched
  rw [modChan_status]
  split
  · rfl
  · rw [modStatus_modChan, offerWord_modChan, refreshAttention_modChan]

theorem latchPart_modChan (k : PartCond) : latchPart k (modChan c f s) = modChan c f (latchPart k s) := setLatched_modChan c f s _ _

theorem requestMark_modChan (d : Chan) (trigger : Word32) :
    requestMark d trigger (modChan c f s) = modChan c f (requestMark d trigger s) := by
  unfold requestMark
  rw [modChan_strands]
  cases markAnswer (s.strands.get (strandOf d)) trigger with
  | late => simp only [modPartCounters_modChan, latchPart_modChan]
  | dropped => simp only [modPartCounters_modChan, latchPart_modChan]
  | scheduled => rfl
  | merged => rfl
  | none => rfl
  | suppressed => rfl

theorem produce_modChan (r : Record) : produce r (modChan c f s) = modChan c f (produce r s) := by
  unfold produce
  rw [modChan_ring]
  split
  · rfl
  · rw [modPartCounters_modChan, latchPart_modChan]
    rfl

end ReadNoChannel

/-! ## Mark requests -/

theorem requestMark_rest (c : Chan) (trigger : Word32) (s : State) :
    (requestMark c trigger s).chans = s.chans ∧ (requestMark c trigger s).ring = s.ring ∧
      (requestMark c trigger s).ms = s.ms ∧ (requestMark c trigger s).status.words = s.status.words ∧
      (requestMark c trigger s).status.counters = s.status.counters ∧ (requestMark c trigger s).setup = s.setup := by
  have hcounted (k : PartCond) (f : PartCounters → PartCounters) :
      (latchPart k (modPartCounters f s)).chans = s.chans ∧ (latchPart k (modPartCounters f s)).ring = s.ring ∧
        (latchPart k (modPartCounters f s)).ms = s.ms ∧
        (latchPart k (modPartCounters f s)).status.words = s.status.words ∧
        (latchPart k (modPartCounters f s)).status.counters = s.status.counters ∧
        (latchPart k (modPartCounters f s)).setup = s.setup := by
    have h := latchPart_offersOnly k (modPartCounters f s)
    exact ⟨h.chans, h.ring, h.ms, latchPart_words _ _, h.counters, h.setup⟩
  unfold requestMark
  cases markAnswer (s.strands.get (strandOf c)) trigger with
  | late => exact hcounted _ _
  | dropped => exact hcounted _ _
  | scheduled => exact ⟨rfl, rfl, rfl, rfl, rfl, rfl⟩
  | merged => exact ⟨rfl, rfl, rfl, rfl, rfl, rfl⟩
  | none => exact ⟨rfl, rfl, rfl, rfl, rfl, rfl⟩
  | suppressed => exact ⟨rfl, rfl, rfl, rfl, rfl, rfl⟩

/-- R120: the state after the request that a closure matched by `e` makes. -/
def requested (c : Chan) (set : ParamSet) (e : Profile) (k : Closure) (s : State) : State :=
  if e.mark = true ∧ (s.chan c).record.mode = .live then requestMark c (closureTrigger set k) s else s

theorem requestFor_eq (c : Chan) (set : ParamSet) (e : Profile) (k : Closure) (s : State) :
    requestFor c set e k s = requested c set e k s := by
  unfold requestFor requested
  cases e.mark with
  | false => rfl
  | true =>
    cases (s.chan c).record.mode with
    | live => rfl
    | replay => rfl

theorem requested_rest (c : Chan) (set : ParamSet) (e : Profile) (k : Closure) (s : State) :
    (requested c set e k s).chans = s.chans ∧ (requested c set e k s).ring = s.ring ∧
      (requested c set e k s).ms = s.ms ∧ (requested c set e k s).status.words = s.status.words ∧
      (requested c set e k s).status.counters = s.status.counters ∧ (requested c set e k s).setup = s.setup := by
  unfold requested
  split
  · exact requestMark_rest c _ s
  · exact ⟨rfl, rfl, rfl, rfl, rfl, rfl⟩

/-! ## Records produced (R130, R131) -/

theorem extendLoss_eq (now : Word32) (r : Ring) : { r with loss := some (extendLoss now r.loss) } = lostRing now r := by
  cases h : r.loss <;> simp [lostRing, extendLoss, h, sat32]

/-- R131: a record that finds 64 queued is lost. -/
theorem produce_full {r : Record} {s : State} (h : 64 ≤ s.ring.queue.length) :
    (produce r s).ring = lostRing s.ms s.ring ∧ (produce r s).chans = s.chans ∧ (produce r s).strands = s.strands ∧
      (produce r s).status.partCounters =
        { s.status.partCounters with recordsLost := min (s.status.partCounters.recordsLost + 1) 65535 } ∧
      (produce r s).status.part.latched = s.status.part.latched ||| 4 ∧ (produce r s).status.words = s.status.words ∧
      (produce r s).status.counters = s.status.counters := by
  have hring := (produce_full_ring r s h).trans (extendLoss_eq s.ms s.ring)
  obtain ⟨hchans, hstrands, -⟩ := produce_rest r s
  have hproduce : (produce r s).status = (latchPart .recordsLost
      (modPartCounters (fun k => { k with recordsLost := sat16 (k.recordsLost + 1) }) s)).status := by
    rw [produce, if_neg (by omega)]
    rfl
  obtain ⟨-, hcounters, hlatched⟩ := latchPart_modPartCounters .recordsLost
    (fun k => { k with recordsLost := sat16 (k.recordsLost + 1) }) s
  rw [hproduce]
  exact ⟨hring, hchans, hstrands, hcounters, hlatched, latchPart_words _ _, (latchPart_offersOnly _ _).counters⟩

/-! ## A closure classified (R118 to R123) -/

/-- R121: the DEFECT record of a closure matched by `e`, as channel `c` stands before it. -/
def defectGiven (c : Chan) (set : ParamSet) (e : Profile) (k : Closure) (s : State) : DefectRecord :=
  { chan := c, classCode := e.classCode, severity := e.severity, flags := defectFlags k (isEdge (heldW s) set.chan k)
    mark :=
      if e.mark = false then .none
      else if (s.chan c).record.mode = .replay then .suppressed
      else markAnswer (s.strands.get (strandOf c)) (closureTrigger set k)
    billet := (s.chan c).record.billet, serial := (s.chan c).record.serial + 1, firstPos := k.firstPos
    length := k.lastPos - k.firstPos, lo := k.lo, hi := k.hi, peak := k.peak, area := k.area, lines := k.lines
    closeTime := s.ms }

theorem closureMark_eq (c : Chan) (set : ParamSet) (e : Profile) (k : Closure) (s : State) :
    closureMark c set e k s =
      if e.mark = false then .none
      else if (s.chan c).record.mode = .replay then .suppressed
      else markAnswer (s.strands.get (strandOf c)) (closureTrigger set k) := by
  unfold closureMark
  cases e.mark with
  | false => rfl
  | true =>
    cases (s.chan c).record.mode with
    | live => rfl
    | replay => rfl

/-- R119 to R121: a closure that an entry matches takes the next serial, makes its request and produces its record. -/
theorem classify_matched {c : Chan} {set : ParamSet} {e : Profile} {k : Closure} {s : State}
    (h : matchingEntry (heldW s) set k = some e) :
    classify c set k s =
      modRecord c (fun r => { r with serial := r.serial + 1 })
        (produce (.defect (defectGiven c set e k s)) (requested c set e k s)) := by
  have hmode : ((takeSerial c s).chan c).record.mode = (s.chan c).record.mode := by simp [takeSerial]
  have hserial : ((takeSerial c s).chan c).record =
      { (s.chan c).record with serial := (s.chan c).record.serial + 1 } := by simp [takeSerial]
  have hdefect : defectOf c set e k (closureMark c set e k (takeSerial c s)) (takeSerial c s) = defectGiven c set e k s := by
    rw [defectOf, closureMark_eq, hserial]
    rfl
  have hrequested : requested c set e k (takeSerial c s) = takeSerial c (requested c set e k s) := by
    unfold requested
    rw [hmode]
    split
    · exact requestMark_modChan c _ s c _
    · rfl
  rw [classify, h]
  change produce (.defect (defectOf c set e k (closureMark c set e k (takeSerial c s)) (takeSerial c s)))
    (requestFor c set e k (takeSerial c s)) = _
  rw [hdefect, requestFor_eq, hrequested]
  exact produce_modChan c _ _ _

/-- R118: a closure that no entry matches is counted as discarded. -/
theorem classify_unmatched {c : Chan} {set : ParamSet} {k : Closure} {s : State} (h : matchingEntry (heldW s) set k = none) :
    classify c set k s = belowClass c s := by
  rw [classify, h]

theorem matchingEntry_of_first {w n : Nat} {set : ParamSet} {k : Closure} {e : Profile}
    (he : (set.profiles.get (tableIndex set.chan.profile)).toList[n]? = some e) (hm : profileMatches w set.chan k e = true)
    (hfirst : ∀ (m : Nat) (x : Profile), m < n → (set.profiles.get (tableIndex set.chan.profile)).toList[m]? = some x →
      profileMatches w set.chan k x = false) :
    matchingEntry w set k = some e := by
  obtain ⟨hn, hget⟩ := List.getElem?_eq_some_iff.mp he
  refine List.find?_eq_some_iff_getElem.mpr ⟨hm, n, hn, hget, fun m hmn => ?_⟩
  simpa using hfirst m _ hmn (List.getElem?_eq_getElem (hmn.trans hn))

/-- Settles O59: the entry that decides, or none; and R131 of any record. -/
theorem theFirstMatchingEntryDecides : Obligations.TheFirstMatchingEntryDecides := by
  intro c set k s
  refine ⟨fun n e he hm hfirst => ?_, fun hnone => ?_, fun r hfull => produce_full hfull⟩
  · have hclassify := classify_matched (c := c) (matchingEntry_of_first he hm hfirst)
    obtain ⟨hchans, hring, hms, hwords, hcounters, -⟩ := requested_rest c set e k s
    obtain ⟨hpchans, hpstrands, -⟩ := produce_rest (.defect (defectGiven c set e k s)) (requested c set e k s)
    have hchan (d : Chan) : (produce (.defect (defectGiven c set e k s)) (requested c set e k s)).chan d = s.chan d :=
      congrArg (fun b : Bank16 Channel => b.get d) (hpchans.trans hchans)
    rw [hclassify]
    refine ⟨?_, fun d hd => ?_, ?_, fun hroom => ?_, fun u hu hfull => ?_⟩
    · rw [modRecord_chan_same, hchan]
    · rw [modRecord_chan_other _ _ hd, hchan]
    · rw [modRecord_strands, hpstrands, requested, apply_ite State.strands]
      rfl
    · rw [modRecord_status, modRecord_ring, produce_room _ _ (by rwa [hring]), modRing_status, modRing_ring, hring]
      refine ⟨?_, rfl⟩
      rw [requested, apply_ite State.status]
      rfl
    · have hrequested : u = requested c set e k s := hu
      obtain ⟨hlost, -, -, hpart, hlatched, hpwords, hpcounters⟩ :=
        produce_full (r := .defect (defectGiven c set e k s)) (s := requested c set e k s) (by rwa [hring])
      rw [modRecord_status, modRecord_ring, hrequested]
      refine ⟨?_, hpart, hlatched, hpwords.trans hwords, hpcounters.trans hcounters⟩
      rw [hlost, hms, hring]
  · have hclassify : classify c set k s = belowClass c s :=
      classify_unmatched (List.find?_eq_none.mpr fun e he => by simp [hnone e he])
    rw [hclassify]
    refine ⟨rfl, rfl, ?_, ?_, fun o => ?_⟩
    · rw [belowClass, modTallies_chan_same]
      rfl
    · simp [belowClass, sat16]
    · cases o <;> rfl

end Sys2Proof.Machine
end

section
/-! APPLY's clamping (R176, R177). -/

namespace Sys2Proof.Machine

open Sys2Proof.Safety

/-! ## A number brought into a range -/

theorem clampTo_bounds {lo hi : Nat} (h : lo ≤ hi) (v : Nat) : lo ≤ clampTo lo hi v ∧ clampTo lo hi v ≤ hi := by
  unfold clampTo
  omega

theorem clampTo_broughtInto {lo hi : Nat} (h : lo ≤ hi) (v : Nat) : BroughtInto lo hi v (clampTo lo hi v) := by
  unfold clampTo
  refine ⟨fun h1 h2 => ?_, fun h1 => ?_, fun h1 h2 => ?_⟩ <;> omega

theorem eq_clampTo_of_broughtInto {lo hi v m : Nat} (h : lo ≤ hi) (hm : BroughtInto lo hi v m) : m = clampTo lo hi v := by
  obtain ⟨hin, hbelow, habove⟩ := hm
  unfold clampTo
  rcases lt_or_ge v lo with h1 | h1
  · rw [hbelow h1]; omega
  · rcases lt_or_ge hi v with h2 | h2
    · rw [habove h1 h2]; omega
    · rw [hin h1 h2]; omega

/-- A number within its range is kept. -/
theorem clampTo_of_mem {lo hi v : Nat} (h : lo ≤ v ∧ v ≤ hi) : clampTo lo hi v = v := by
  unfold clampTo
  omega

theorem clampTo_idem {lo hi : Nat} (h : lo ≤ hi) (v : Nat) : clampTo lo hi (clampTo lo hi v) = clampTo lo hi v :=
  clampTo_of_mem (clampTo_bounds h v)

/-! ## The margins and the pitch bounds -/

/-- R177: the margins leave 32 columns between them, the right one lowered first. -/
theorem clampMargins_eq {w mLo mHi : Nat} (hw : 64 ≤ w) :
    clampLo w mLo mHi ≤ 255 ∧ clampHi w mLo mHi ≤ 255 ∧ clampLo w mLo mHi + clampHi w mLo mHi + 32 ≤ w ∧
      if min 255 mLo + 32 ≤ w then
        clampLo w mLo mHi = min 255 mLo ∧ clampHi w mLo mHi = min (min 255 mHi) (w - 32 - min 255 mLo)
      else clampLo w mLo mHi = w - 32 ∧ clampHi w mLo mHi = 0 := by
  unfold clampLo clampHi
  split <;> omega

theorem clampMargins_idem {w mLo mHi : Nat} (hw : 64 ≤ w) :
    clampHi w (clampLo w mLo mHi) (clampHi w mLo mHi) = clampHi w mLo mHi ∧
      clampLo w (clampLo w mLo mHi) (clampHi w mLo mHi) = clampLo w mLo mHi := by
  unfold clampLo clampHi
  omega

/-- R177: PMIN, PITCH and PMAX stand in order within their range. -/
theorem clampPitch_bounds (w : Nat) (p : ChanParams) :
    2000 ≤ (clampChan w p).pMin ∧ (clampChan w p).pMin ≤ (clampChan w p).pitch ∧
      (clampChan w p).pitch ≤ (clampChan w p).pMax ∧ (clampChan w p).pMax ≤ 40000 := by
  simp only [clampChan, clampTo]
  omega

theorem clampChan_idem {w : Nat} (hw : 64 ≤ w) (p : ChanParams) : clampChan w (clampChan w p) = clampChan w p := by
  obtain ⟨hhi, hlo⟩ := clampMargins_idem (mLo := p.mLo) (mHi := p.mHi) hw
  obtain ⟨hmin, hpitch, hmax, htop⟩ := clampPitch_bounds w p
  have hpMax : max (clampChan w p).pMin (clampTo 2000 40000 (clampChan w p).pMax) = (clampChan w p).pMax := by
    rw [clampTo_of_mem ⟨by omega, htop⟩]
    omega
  have hpPitch : clampTo (clampChan w p).pMin (clampChan w p).pMax (clampTo 2000 40000 (clampChan w p).pitch) =
      (clampChan w p).pitch := by
    rw [clampTo_of_mem (lo := 2000) ⟨by omega, by omega⟩, clampTo_of_mem ⟨hpitch, hmax⟩]
  have hpMin : clampTo 2000 40000 (clampChan w p).pMin = (clampChan w p).pMin := clampTo_idem (by decide) _
  simp only [clampChan] at hpMax hpPitch hpMin ⊢
  simp only [hpMax, hpPitch, hpMin, hhi, hlo, clampTo_idem (show 1 ≤ 255 by decide), clampTo_idem (show 1 ≤ 256 by decide),
    clampTo_idem (show 256 ≤ 16384 by decide), clampTo_idem (show 1 ≤ 32 by decide), clampTo_idem (show 1 ≤ 8 by decide),
    clampTo_idem (show 0 ≤ 63 by decide), clampTo_idem (show 0 ≤ 15 by decide), clampTo_idem (show 1 ≤ 16 by decide),
    clampTo_idem (show 0 ≤ 8 by decide), clampTo_idem (show 128 ≤ 256 by decide), clampTo_idem (show 2 ≤ 64 by decide),
    clampTo_idem (show 0 ≤ 64 by decide), clampTo_idem (show 0 ≤ 3 by decide), clampTo_idem (show 0 ≤ 10000 by decide),
    clampTo_idem (show 10 ≤ 2000 by decide), clampTo_idem (show 0 ≤ 65535 by decide)]

theorem clampStrand_idem (x : StrandParams) : clampStrand (clampStrand x) = clampStrand x := by
  simp only [clampStrand, clampTo_idem (show 1 ≤ 4294967295 by decide), clampTo_idem (show 0 ≤ 2147483647 by decide),
    clampTo_idem (show 0 ≤ 65535 by decide), clampTo_idem (show 1 ≤ 255 by decide), clampTo_idem (show 1 ≤ 60 by decide)]

/-- Settles O60: each number by its one range, the margins and the pitch bounds by their own rules. -/
theorem clampedSettingsLieInTheirRanges : Obligations.ClampedSettingsLieInTheirRanges := by
  intro w p hw
  have bounds {lo hi : Nat} (h : lo ≤ hi) (v : Nat) := clampTo_bounds h v
  have brought {lo hi : Nat} (h : lo ≤ hi) (v : Nat) := clampTo_broughtInto h v
  obtain ⟨hlo, hhi, hsum, hmargins⟩ := clampMargins_eq (mLo := p.mLo) (mHi := p.mHi) hw
  obtain ⟨hmin, hpitch, hmax, htop⟩ := clampPitch_bounds w p
  refine ⟨hlo, hhi, hsum, bounds (by decide) _, bounds (by decide) _, bounds (by decide) _, bounds (by decide) _,
    bounds (by decide) _, bounds (by decide) _, (bounds (by decide) _).2, (bounds (by decide) _).2, bounds (by decide) _,
    (bounds (by decide) _).2, (bounds (by decide) _).2, bounds (by decide) _, bounds (by decide) _, bounds (by decide) _,
    bounds (by decide) _, (bounds (by decide) _).2, (bounds (by decide) _).2, bounds (by decide) _, bounds (by decide) _,
    bounds (by decide) _, ⟨hmin, hpitch, hmax, htop⟩, (bounds (by decide) _).2, bounds (by decide) _,
    (bounds (by decide) _).2,
    brought (by decide) _, brought (by decide) _, brought (by decide) _, brought (by decide) _, brought (by decide) _,
    brought (by decide) _, brought (by decide) _, brought (by decide) _, brought (by decide) _, brought (by decide) _,
    brought (by decide) _, brought (by decide) _, brought (by decide) _, brought (by decide) _, brought (by decide) _,
    brought (by decide) _, brought (by decide) _, brought (by decide) _, brought (by decide) _, brought (by decide) _,
    brought (by decide) _, brought (by decide) _, brought (by decide) _, brought (by decide) _, fun m hm => ?_, fun m hm => ?_,
    hmargins, rfl, rfl, clampChan_idem hw p, fun x => ?_, fun x => ?_, fun x => ?_⟩
  · rw [eq_clampTo_of_broughtInto (by decide) hm]
    rfl
  · rw [eq_clampTo_of_broughtInto (by decide) hm]
    exact brought (hpitch.trans hmax) _
  · exact ⟨bounds (by decide) _, (bounds (by decide) _).2, (bounds (by decide) _).2, bounds (by decide) _, bounds (by decide) _,
      brought (by decide) _, brought (by decide) _, brought (by decide) _, brought (by decide) _, brought (by decide) _,
      clampStrand_idem x⟩
  · exact ⟨bounds (by decide) _, bounds (by decide) _, brought (by decide) _, brought (by decide) _, rfl⟩
  · exact ⟨(bounds (by decide) _).2, (bounds (by decide) _).2, brought (by decide) _, brought (by decide) _, rfl⟩

end Sys2Proof.Machine
end

section
/-! The runs of a line's dark columns (R62). -/

namespace Sys2Proof.Machine

open Sys2Proof.Safety

/-! ## A run and its columns -/

/-- R62: the run `r` is that of the columns `p`, of which it begins with one and ends on one. -/
structure RunMadeOf (r : Run) (p : List Column) : Prop where
  first : ∃ x ∈ p, x.index = r.lo
  last : ∃ x ∈ p, x.index = r.hi
  within : ∀ x ∈ p, r.lo ≤ x.index ∧ x.index ≤ r.hi
  area : r.area = p.length
  width : r.area ≤ r.hi - r.lo + 1
  peak : r.peak = (p.map fun x => (residual x).toNat).foldl max 0
  sum : (∀ x ∈ p, x.b ≤ 65280) → r.sum = min (p.map fun x => (residual x).toNat).sum 4294967295
  inMark : r.inMark = false

theorem RunMadeOf.lo_le_hi {r : Run} {p : List Column} (h : RunMadeOf r p) : r.lo ≤ r.hi := by
  obtain ⟨x, hx, hlo⟩ := h.first
  have := (h.within x hx).2
  omega

theorem residual_toNat_le {x : Column} (h : x.b ≤ 65280) : (residual x).toNat ≤ 65280 := by
  unfold residual
  omega

theorem runMadeOf_beginRun (c : Column) : RunMadeOf (beginRun c) [c] where
  first := ⟨c, by simp, rfl⟩
  last := ⟨c, by simp, rfl⟩
  within x hx := by
    rw [List.mem_singleton] at hx
    subst hx
    exact ⟨le_refl _, le_refl _⟩
  area := rfl
  width := Nat.le_add_left 1 _
  peak := by simp [beginRun]
  sum h := by
    have := residual_toNat_le (h c (by simp))
    simp only [beginRun, List.map_cons, List.map_nil, List.sum_cons, List.sum_nil]
    omega
  inMark := rfl

theorem runMadeOf_joinRun {r : Run} {p : List Column} {c : Column} (h : RunMadeOf r p) (hc : r.hi < c.index) :
    RunMadeOf (joinRun r c) (p ++ [c]) where
  first := by
    obtain ⟨x, hx, hlo⟩ := h.first
    exact ⟨x, List.mem_append_left _ hx, hlo⟩
  last := ⟨c, by simp, rfl⟩
  within x hx := by
    rcases List.mem_append.mp hx with hx | hx
    · have hin := h.within x hx
      exact ⟨hin.1, hin.2.trans hc.le⟩
    · rw [List.mem_singleton] at hx
      subst hx
      exact ⟨h.lo_le_hi.trans hc.le, le_refl _⟩
  area := by simp [joinRun, h.area]
  width := by
    have hw := h.width
    have hle := h.lo_le_hi
    simp only [joinRun]
    omega
  peak := by simp [joinRun, h.peak, List.foldl_append]
  sum hb := by
    have hsum := h.sum fun x hx => hb x (List.mem_append_left _ hx)
    simp only [joinRun, hsum, sat32, List.map_append, List.sum_append, List.map_cons, List.map_nil, List.sum_cons, List.sum_nil]
    omega
  inMark := h.inMark

/-- The columns of a line that lie in a run. -/
def columnsIn (r : Run) (ds : List Column) : List Column :=
  ds.filter fun x => decide (r.lo ≤ x.index) && decide (x.index ≤ r.hi)

theorem columnsIn_all {r : Run} {p : List Column} (h : ∀ x ∈ p, r.lo ≤ x.index ∧ x.index ≤ r.hi) : columnsIn r p = p :=
  List.filter_eq_self.mpr fun x hx => by simpa using h x hx

theorem columnsIn_append (r : Run) (p q : List Column) : columnsIn r (p ++ q) = columnsIn r p ++ columnsIn r q :=
  List.filter_append ..

theorem columnsIn_none {r : Run} {p : List Column} (h : ∀ x ∈ p, x.index < r.lo ∨ r.hi < x.index) : columnsIn r p = [] :=
  List.filter_eq_nil_iff.mpr fun x hx => by
    have := h x hx
    simp
    omega

/-! ## The columns joined, left to right -/

section Joined

variable {br : Nat} {r : Run} {cs : List Column}

theorem runsFrom_join {c : Column} (h : c.index ≤ r.hi + br + 1) (hc : r.hi < c.index) :
    runsFrom br r (c :: cs) = runsFrom br (joinRun r c) cs := by
  rw [runsFrom, if_pos (by omega)]

theorem runsFrom_apart {c : Column} (h : r.hi + br + 1 < c.index) :
    runsFrom br r (c :: cs) = r :: runsFrom br (beginRun c) cs := by
  rw [runsFrom, if_neg (by omega)]

/-- R62: the areas of the runs count every column once. -/
theorem runsFrom_area : ((runsFrom br r cs).map Run.area).sum = r.area + cs.length := by
  induction cs generalizing r with
  | nil => simp [runsFrom]
  | cons c cs ih =>
    unfold runsFrom
    split
    · rw [ih]
      simp [joinRun]
      omega
    · rw [List.map_cons, List.sum_cons, ih]
      simp [beginRun]
      omega

/-- The columns of a line still to be joined, left to right, past the run in progress. -/
abbrev Ahead (r : Run) (cs : List Column) : Prop := r.lo ≤ r.hi ∧ ∀ x ∈ cs, r.hi < x.index

abbrev Rising (cs : List Column) : Prop := (cs.map Column.index).Pairwise (fun a b => a < b)

theorem rising_cons {c : Column} (h : Rising (c :: cs)) : Rising cs ∧ ∀ x ∈ cs, c.index < x.index := by
  simp only [Rising, List.map_cons, List.pairwise_cons, List.mem_map, forall_exists_index, and_imp, forall_apply_eq_imp_iff₂] at h
  exact ⟨h.2, h.1⟩

theorem ahead_joinRun {c : Column} (ha : Ahead r (c :: cs)) (h : Rising (c :: cs)) : Ahead (joinRun r c) cs :=
  ⟨ha.1.trans (ha.2 c (by simp)).le, (rising_cons h).2⟩

theorem ahead_beginRun {c : Column} (h : Rising (c :: cs)) : Ahead (beginRun c) cs := ⟨le_refl _, (rising_cons h).2⟩

/-- Each run of the line begins at the run in progress or past it; the first begins with it and takes it whole. -/
theorem runsFrom_bounds (ha : Ahead r cs) (h : Rising cs) :
    (∀ u ∈ runsFrom br r cs, r.lo ≤ u.lo) ∧ ∃ u ∈ runsFrom br r cs, u.lo = r.lo ∧ r.hi ≤ u.hi := by
  induction cs generalizing r with
  | nil => simp [runsFrom]
  | cons c cs ih =>
    have hc : r.hi < c.index := ha.2 c (by simp)
    rcases Nat.lt_or_ge (r.hi + br + 1) c.index with hgap | hgap
    · rw [runsFrom_apart hgap]
      obtain ⟨hlo, -⟩ := ih (r := beginRun c) (ahead_beginRun h) (rising_cons h).1
      refine ⟨fun u hu => ?_, r, by simp, rfl, le_refl _⟩
      rcases List.mem_cons.mp hu with rfl | hu
      · exact le_refl _
      · exact (ha.1.trans hc.le).trans (hlo u hu)
    · rw [runsFrom_join hgap hc]
      obtain ⟨hlo, u, hu, hulo, huhi⟩ := ih (ahead_joinRun ha h) (rising_cons h).1
      exact ⟨hlo, u, hu, hulo, hc.le.trans huhi⟩

/-- R62: the runs stand apart by more than BR columns. -/
theorem runsFrom_apart_pairwise (ha : Ahead r cs) (h : Rising cs) :
    (runsFrom br r cs).Pairwise (fun r u => r.hi + br + 1 < u.lo) := by
  induction cs generalizing r with
  | nil => simp [runsFrom]
  | cons c cs ih =>
    have hc : r.hi < c.index := ha.2 c (by simp)
    rcases Nat.lt_or_ge (r.hi + br + 1) c.index with hgap | hgap
    · rw [runsFrom_apart hgap, List.pairwise_cons]
      exact ⟨fun u hu => hgap.trans_le ((runsFrom_bounds (ahead_beginRun h) (rising_cons h).1).1 u hu),
        ih (ahead_beginRun h) (rising_cons h).1⟩
    · rw [runsFrom_join hgap hc]
      exact ih (ahead_joinRun ha h) (rising_cons h).1

/-- R62: every column lies in a run. -/
theorem runsFrom_cover (ha : Ahead r cs) (h : Rising cs) {x : Column} (hx : x ∈ cs) :
    ∃ u ∈ runsFrom br r cs, u.lo ≤ x.index ∧ x.index ≤ u.hi := by
  induction cs generalizing r with
  | nil => cases hx
  | cons c cs ih =>
    have hc : r.hi < c.index := ha.2 c (by simp)
    rcases Nat.lt_or_ge (r.hi + br + 1) c.index with hgap | hgap
    · rw [runsFrom_apart hgap]
      rcases List.mem_cons.mp hx with rfl | hx
      · obtain ⟨-, u, hu, hlo, hhi⟩ := runsFrom_bounds (br := br) (ahead_beginRun h) (rising_cons h).1
        exact ⟨u, List.mem_cons_of_mem _ hu, hlo.le, hhi⟩
      · obtain ⟨u, hu, hin⟩ := ih (ahead_beginRun h) (rising_cons h).1 hx
        exact ⟨u, List.mem_cons_of_mem _ hu, hin⟩
    · rw [runsFrom_join hgap hc]
      rcases List.mem_cons.mp hx with rfl | hx
      · obtain ⟨-, u, hu, hlo, hhi⟩ := runsFrom_bounds (br := br) (ahead_joinRun ha h) (rising_cons h).1
        have hrlo : r.lo ≤ r.hi := ha.1
        exact ⟨u, hu, by rw [hlo]; exact (hrlo.trans hc.le), hhi⟩
      · exact ih (ahead_joinRun ha h) (rising_cons h).1 hx

/-- R62: a column and the run in progress share a run exactly if at most BR columns lie between them. -/
theorem runsFrom_shares_next {c : Column} (ha : Ahead r (c :: cs)) (h : Rising (c :: cs)) :
    (∃ u ∈ runsFrom br r (c :: cs), u.lo ≤ r.hi ∧ c.index ≤ u.hi) ↔ c.index ≤ r.hi + br + 1 := by
  have hc : r.hi < c.index := ha.2 c (by simp)
  constructor
  · rintro ⟨u, hu, hlo, hhi⟩
    by_contra hgap
    rw [runsFrom_apart (by omega)] at hu
    rcases List.mem_cons.mp hu with rfl | hu
    · omega
    · have : c.index ≤ u.lo := (runsFrom_bounds (ahead_beginRun h) (rising_cons h).1).1 u hu
      omega
  · intro hgap
    rw [runsFrom_join hgap hc]
    obtain ⟨-, u, hu, hlo, hhi⟩ := runsFrom_bounds (br := br) (ahead_joinRun ha h) (rising_cons h).1
    have hulo : u.lo = r.lo := hlo
    exact ⟨u, hu, by rw [hulo]; exact ha.1, hhi⟩

/-- R62: two neighbouring columns share a run exactly if at most BR columns lie between them. -/
theorem runsFrom_shares {before after : List Column} {x y : Column} (hcs : cs = before ++ x :: y :: after) (ha : Ahead r cs)
    (h : Rising cs) :
    (∃ u ∈ runsFrom br r cs, u.lo ≤ x.index ∧ y.index ≤ u.hi) ↔ y.index ≤ x.index + br + 1 := by
  induction cs generalizing r before with
  | nil => simp at hcs
  | cons c cs ih =>
    have hc : r.hi < c.index := ha.2 c (by simp)
    have hjoined := ahead_joinRun ha h
    have hbegun := ahead_beginRun h
    obtain ⟨hcsrise, hcsahead⟩ := rising_cons h
    cases before with
    | nil =>
      rw [List.nil_append, List.cons.injEq] at hcs
      obtain ⟨rfl, rfl⟩ := hcs
      rcases Nat.lt_or_ge (r.hi + br + 1) c.index with hgap | hgap
      · rw [runsFrom_apart hgap]
        have hy : c.index < y.index := hcsahead y (by simp)
        have hnot : ¬ (r.lo ≤ c.index ∧ y.index ≤ r.hi) := by omega
        simp only [List.mem_cons, exists_eq_or_imp, hnot, false_or]
        exact runsFrom_shares_next (r := beginRun c) hbegun hcsrise
      · rw [runsFrom_join hgap hc]
        exact runsFrom_shares_next (r := joinRun r c) hjoined hcsrise
    | cons b before =>
      rw [List.cons_append, List.cons.injEq] at hcs
      obtain ⟨rfl, hcs⟩ := hcs
      have hy : c.index < y.index := hcsahead y (by simp [hcs])
      rcases Nat.lt_or_ge (r.hi + br + 1) c.index with hgap | hgap
      · rw [runsFrom_apart hgap, ← ih hcs hbegun hcsrise]
        have hnot : ¬ (r.lo ≤ x.index ∧ y.index ≤ r.hi) := by omega
        simp only [List.mem_cons, exists_eq_or_imp, hnot, false_or]
      · rw [runsFrom_join hgap hc]
        exact ih hcs hjoined hcsrise

/-- R62: each run is made of the columns that lie in it; `p` are those of the run in progress. -/
theorem runsFrom_madeOf {p : List Column} (hp : RunMadeOf r p) (ha : ∀ x ∈ cs, r.hi < x.index) (h : Rising cs) {u : Run}
    (hu : u ∈ runsFrom br r cs) : RunMadeOf u (columnsIn u (p ++ cs)) := by
  induction cs generalizing r p with
  | nil =>
    rw [runsFrom, List.mem_singleton] at hu
    subst hu
    rwa [List.append_nil, columnsIn_all hp.within]
  | cons c cs ih =>
    have hc : r.hi < c.index := ha c (by simp)
    obtain ⟨hcsrise, hcsahead⟩ := rising_cons h
    rcases Nat.lt_or_ge (r.hi + br + 1) c.index with hgap | hgap
    · rw [runsFrom_apart hgap] at hu
      rcases List.mem_cons.mp hu with rfl | hu
      · rwa [columnsIn_append, columnsIn_all hp.within, columnsIn_none fun x hx => .inr (ha x hx), List.append_nil]
      · have hulo : c.index ≤ u.lo := (runsFrom_bounds (ahead_beginRun h) hcsrise).1 u hu
        have hbefore : columnsIn u p = [] :=
          columnsIn_none fun x hx => .inl (((hp.within x hx).2.trans_lt hc).trans_le hulo)
        rw [columnsIn_append, hbefore, List.nil_append]
        exact ih (runMadeOf_beginRun c) hcsahead hcsrise hu
    · rw [runsFrom_join hgap hc] at hu
      have := ih (runMadeOf_joinRun hp hc) hcsahead hcsrise hu
      rwa [List.append_assoc, List.singleton_append] at this

end Joined

/-- Settles O55: the first dark column begins the run in progress, and the others are joined to it. -/
theorem runsPartitionTheDarkColumns : Obligations.RunsPartitionTheDarkColumns := by
  intro br ds hrise
  cases ds with
  | nil => simp [runsOfDark]
  | cons c cs =>
    obtain ⟨hcs, hahead⟩ := rising_cons hrise
    have hbegun : Ahead (beginRun c) cs := ahead_beginRun hrise
    change ((runsFrom br (beginRun c) cs).map Run.area).sum = _ ∧ (runsFrom br (beginRun c) cs).Pairwise _ ∧
      (∀ x ∈ c :: cs, ∃ r ∈ runsFrom br (beginRun c) cs, _) ∧
      (∀ (before after : List Column) (x y : Column), c :: cs = before ++ x :: y :: after →
        ((∃ r ∈ runsFrom br (beginRun c) cs, _) ↔ _)) ∧ ∀ r ∈ runsFrom br (beginRun c) cs, _
    refine ⟨?_, runsFrom_apart_pairwise hbegun hcs, fun x hx => ?_, fun before after x y hds => ?_, fun r hr => ?_⟩
    · rw [runsFrom_area, List.length_cons, Nat.add_comm]
      rfl
    · rcases List.mem_cons.mp hx with rfl | hx
      · obtain ⟨-, u, hu, hlo, hhi⟩ := runsFrom_bounds (br := br) hbegun hcs
        exact ⟨u, hu, hlo.le, hhi⟩
      · exact runsFrom_cover hbegun hcs hx
    · cases before with
      | nil =>
        rw [List.nil_append, List.cons.injEq] at hds
        obtain ⟨rfl, rfl⟩ := hds
        exact runsFrom_shares_next (r := beginRun c) hbegun hcs
      | cons b before =>
        rw [List.cons_append, List.cons.injEq] at hds
        exact runsFrom_shares hds.2 hbegun hcs
    · have hmade : RunMadeOf r (columnsIn r (c :: cs)) :=
        runsFrom_madeOf (p := [c]) (runMadeOf_beginRun c) hahead hcs hr
      have hmem {x : Column} (hx : x ∈ columnsIn r (c :: cs)) : x ∈ c :: cs := List.mem_of_mem_filter hx
      obtain ⟨x, hx, hlo⟩ := hmade.first
      obtain ⟨y, hy, hhi⟩ := hmade.last
      refine ⟨hmade.lo_le_hi, ?_, hmade.width, hmade.inMark, ⟨x, hmem hx, hlo⟩, ⟨y, hmem hy, hhi⟩, ?_⟩
      · rw [hmade.area]
        exact List.length_pos_of_mem hx
      · rintro mine rfl
        exact ⟨hmade.area, hmade.peak, fun hb => hmade.sum fun z hz => hb z (hmem hz)⟩

end Sys2Proof.Machine
end

section
/-! The band tracker (R71 to R85): spacings on pitch, the effective pitch, and what becomes of an episode. -/

namespace Sys2Proof.Machine

open Sys2Proof.Safety

/-! ## Spacings (R79, R80) -/

theorem pitchNumber_eq (spacing : Int) (pitch : Nat) : pitchNumber spacing pitch = nearestMultiple spacing pitch :=
  Int.fdiv_eq_ediv_of_nonneg _ (Int.natCast_nonneg pitch)

theorem onPitch_iff {spacing : Int} {pitch tol : Nat} : onPitch spacing pitch tol = true ↔ IsOnPitch spacing pitch tol := by
  simp only [onPitch, IsOnPitch, pitchNumber_eq, Bool.and_eq_true, decide_eq_true_eq, and_assoc]

/-- R79: the deviation from the nearest multiple lies within half a pitch on either side. -/
theorem nearestMultiple_bounds (spacing : Int) {pitch : Nat} (hp : 2 ≤ pitch) :
    nearestMultiple spacing pitch * (pitch : Int) ≤ spacing + ((pitch / 2 : Nat) : Int) ∧
      spacing + ((pitch / 2 : Nat) : Int) < nearestMultiple spacing pitch * (pitch : Int) + (pitch : Int) := by
  have hpos : (0 : Int) < (pitch : Int) := by omega
  have hlo := Int.ediv_mul_le (spacing + ((pitch / 2 : Nat) : Int)) hpos.ne'
  have hhi := Int.lt_ediv_add_one_mul_self (spacing + ((pitch / 2 : Nat) : Int)) hpos
  rw [add_mul, one_mul] at hhi
  exact ⟨hlo, hhi⟩

theorem nearestMultiple_nearest (spacing m : Int) {pitch : Nat} (hp : 2 ≤ pitch) :
    (spacing - nearestMultiple spacing pitch * (pitch : Int)).natAbs ≤ (spacing - m * (pitch : Int)).natAbs := by
  obtain ⟨hlo, hhi⟩ := nearestMultiple_bounds spacing hp
  have hhalf : (pitch : Int) - 1 ≤ 2 * ((pitch / 2 : Nat) : Int) ∧ 2 * ((pitch / 2 : Nat) : Int) ≤ (pitch : Int) := by omega
  rcases lt_trichotomy m (nearestMultiple spacing pitch) with h | h | h
  · have : m * (pitch : Int) + (pitch : Int) ≤ nearestMultiple spacing pitch * (pitch : Int) := by
      nlinarith [mul_nonneg (sub_nonneg.mpr (Int.add_one_le_iff.mpr h)) (Int.natCast_nonneg pitch)]
    omega
  · rw [h]
  · have : nearestMultiple spacing pitch * (pitch : Int) + (pitch : Int) ≤ m * (pitch : Int) := by
      nlinarith [mul_nonneg (sub_nonneg.mpr (Int.add_one_le_iff.mpr h)) (Int.natCast_nonneg pitch)]
    omega

/-- R79: a spacing of one pitch or more to the nearest is at least that many units. -/
theorem le_spacing_of_nearestMultiple {spacing : Int} {pitch : Nat} (hp : 2 ≤ pitch) (hn : 1 ≤ nearestMultiple spacing pitch) :
    nearestMultiple spacing pitch ≤ spacing := by
  obtain ⟨hlo, -⟩ := nearestMultiple_bounds spacing hp
  have hhalf : 2 * ((pitch / 2 : Nat) : Int) ≤ (pitch : Int) := by omega
  have hprod : 0 ≤ (nearestMultiple spacing pitch - 1) * ((pitch : Int) - 1) :=
    mul_nonneg (by omega) (by omega)
  nlinarith

theorem pitchSample_eq {spacing : Int} {pitch : Nat} (hn : 1 ≤ nearestMultiple spacing pitch) :
    pitchSample spacing pitch = (spacing / nearestMultiple spacing pitch).toNat := by
  rw [pitchSample, pitchNumber_eq, Int.fdiv_eq_ediv_of_nonneg _ (by omega)]

/-! ## The effective pitch (R84) -/

theorem broughtInto_min_max {lo hi v : Nat} (h : lo ≤ hi) : BroughtInto lo hi v (min hi (max lo v)) := by
  refine ⟨fun h1 h2 => ?_, fun h1 => ?_, fun h1 h2 => ?_⟩ <;> omega

theorem effectivePitch_learned {p : ChanParams} {ring : List Nat} (hl : p.learn = true) (hr : 4 ≤ ring.length) :
    effectivePitch p ring = min p.pMax (max p.pMin (ring.sum / ring.length)) := by
  simp [effectivePitch, hl, hr]

theorem effectivePitch_given {p : ChanParams} {ring : List Nat} (h : p.learn = false ∨ ring.length < 4) :
    effectivePitch p ring = min p.pMax (max p.pMin p.pitch) := by
  have hnot : ¬ (p.learn = true ∧ 4 ≤ ring.length) := fun ⟨hl, hr⟩ => by
    rcases h with h | h
    · rw [h] at hl; cases hl
    · omega
  simp only [effectivePitch, if_neg hnot]

/-! ## An episode closed and tested (R77 to R83) -/

theorem insertSample_eq (x : Nat) (ring : List Nat) : insertSample x ring = ringWith x ring := by
  unfold insertSample ringWith
  rcases Nat.lt_or_ge ring.length 8 with h | h
  · rw [if_pos h, if_neg (by omega)]
  · rw [if_neg (by omega), if_pos h, List.drop_one]

theorem handCandidate_dropEpisode (c : Chan) (set : ParamSet) (e : Episode) (cause : Cause) (long : Bool) (s : State) :
    handCandidate c set (bandClosure e cause long) (dropEpisode c s) = afterCandidate c set e cause long s := by
  refine congrArg (classify c set (candidateOf e cause long)) ?_
  simp only [dropEpisode, modTallies_eq, modRecord_eq, modBand_eq, modChan_modChan]
  rfl

theorem acceptReference_dropEpisode (c : Chan) (centre : Nat) (s : State) :
    acceptReference c centre (dropEpisode c s) =
      setChan c (afterMark centre (s.chan c).band.pitchRing (s.chan c).band.effPitch (s.chan c)) s := by
  simp only [acceptReference, dropEpisode, modTallies_eq, modRecord_eq, modBand_eq, modChan_modChan]
  rfl

theorem acceptMark_dropEpisode (c : Chan) (centre sample : Nat) (s : State) :
    acceptMark c centre sample (dropEpisode c s) =
      setChan c
        (afterMark centre (insertSample sample (s.chan c).band.pitchRing)
          (effectivePitch (s.chan c).params.chan (insertSample sample (s.chan c).band.pitchRing)) (s.chan c)) s := by
  simp only [acceptMark, recomputePitch, dropEpisode, modTallies_eq, modRecord_eq, modBand_eq, modChan_modChan]
  rfl

theorem dropEpisode_band (c : Chan) (s : State) :
    ((dropEpisode c s).chan c).band = { (s.chan c).band with episode := Episode.none } := by
  simp [dropEpisode]

/-- R77 to R83: the test of an episode that has closed. -/
theorem testEpisode_dropEpisode (c : Chan) (set : ParamSet) (e : Episode) (cause : Cause) (s : State) :
    testEpisode c set e cause (dropEpisode c s) = afterTest c set e cause s := by
  unfold testEpisode afterTest
  simp only [dropEpisode_band]
  cases hprev : (s.chan c).band.prevCentre with
  | none => exact acceptReference_dropEpisode c _ s
  | some prev =>
    simp only [onPitch_iff]
    split
    · next hon =>
      rw [acceptMark_dropEpisode, insertSample_eq, pitchSample_eq hon.1]
      exact (if_pos hon).symm
    · next hon =>
      rw [handCandidate_dropEpisode]
      exact (if_neg hon).symm

theorem closeEpisode_absent {c : Chan} {s : State} (set : ParamSet) (cause : Cause)
    (h : (s.chan c).band.episode.state = .absent) : closeEpisode c set cause s = s := by
  simp only [closeEpisode, h]

theorem closeEpisode_present {c : Chan} {s : State} (set : ParamSet) (cause : Cause)
    (h : (s.chan c).band.episode.state ≠ .absent) :
    closeEpisode c set cause s = afterTest c set (s.chan c).band.episode cause s := by
  rw [← testEpisode_dropEpisode]
  unfold closeEpisode
  cases he : (s.chan c).band.episode.state with
  | absent => exact absurd he h
  | isOpen => simp only [he]
  | ending => simp only [he]

/-- R72, R73: a band line that extends an episode, of which BANDMAX lines make a LONG one. -/
theorem keepOrCloseLong_eq (c : Chan) (set : ParamSet) (e : Episode) (s : State) :
    keepOrCloseLong c set e s =
      if set.chan.bandMax ≤ e.lines then afterCandidate c set e .gap true s else withEpisode c e s := by
  unfold keepOrCloseLong
  split
  · exact handCandidate_dropEpisode c set e .gap true s
  · rfl

theorem takeBandOutcome_eq (c : Chan) (set : ParamSet) (count : Word32) (pos : Nat) (d : Option DarkSummary) (s : State) :
    takeBandOutcome c set count pos d s = afterBandOutcome c set count pos d s := by
  unfold takeBandOutcome afterBandOutcome
  cases d with
  | some d =>
    simp only
    cases he : (s.chan c).band.episode.state with
    | absent => rfl
    | isOpen => exact (keepOrCloseLong_eq c set _ s).trans (if_neg (by simp)).symm
    | ending => exact (keepOrCloseLong_eq c set _ s).trans (if_neg (by simp)).symm
  | none =>
    simp only
    cases he : (s.chan c).band.episode.state with
    | absent => rfl
    | isOpen => rfl
    | ending => exact closeEpisode_present set .gap (by simp [he])

/-- Settles O56: the arithmetic of R79 and R84, then the band outcome, the closure and the BLIND request. -/
theorem onPitchSpacingsLieNearAMultiple : Obligations.OnPitchSpacingsLieNearAMultiple := by
  refine ⟨fun spacing pitch tol hp => ⟨onPitch_iff, fun hon => ?_⟩, fun p ring hbounds => ⟨fun hl hr => ?_, fun h => ?_⟩,
    takeBandOutcome_eq, fun c set cause s => ⟨⟨closeEpisode_absent set cause, closeEpisode_present set cause⟩, ?_⟩⟩
  · obtain ⟨hn, -, -⟩ := onPitch_iff.mp hon
    have hle := le_spacing_of_nearestMultiple hp hn
    refine ⟨by omega, pitchNumber_eq _ _, fun m => nearestMultiple_nearest _ _ hp, pitchSample_eq hn, ?_⟩
    rw [pitchSample_eq hn]
    have hpos : 0 < spacing / nearestMultiple spacing pitch := (Int.le_ediv_iff_mul_le (by omega)).mpr (by omega)
    omega
  · rw [effectivePitch_learned hl hr]
    exact broughtInto_min_max hbounds
  · rw [effectivePitch_given h]
    exact broughtInto_min_max hbounds
  · rintro t rfl
    rfl

end Sys2Proof.Machine
end

section
/-! The track table (R90 to R102): which track a run extends, and the tracks that an analysed line leaves open. -/

namespace Sys2Proof.Machine

open Sys2Proof.Safety

/-! ## The oldest candidate (R92, R93) -/

theorem isCandidate_iff {ls : Nat} {r : Run} {t : Track} : isCandidate ls r t = true ↔ SpanMeets ls r t := by
  simp only [isCandidate, SpanMeets, Bool.and_eq_true, decide_eq_true_eq]
  omega

/-- R93: of a list of tracks `m` is the oldest against line `seq`, the smaller ID among equals. -/
abbrev OldestIn (seq : Word32) (ts : List Track) (m : Track) : Prop :=
  m ∈ ts ∧ ∀ u ∈ ts, (seq - u.firstSeq).toNat ≤ (seq - m.firstSeq).toNat ∧
    ((seq - u.firstSeq).toNat = (seq - m.firstSeq).toNat → m.id ≤ u.id)

abbrev RisingIds (ts : List Track) : Prop := (ts.map Track.id).Pairwise (fun a b => a < b)

theorem risingIds_cons {t : Track} {ts : List Track} (h : RisingIds (t :: ts)) :
    RisingIds ts ∧ ∀ u ∈ ts, t.id < u.id := by
  simp only [RisingIds, List.map_cons, List.pairwise_cons, List.mem_map, forall_exists_index, and_imp,
    forall_apply_eq_imp_iff₂] at h
  exact ⟨h.2, h.1⟩

theorem risingIds_filter {ts : List Track} (f : Track → Bool) (h : RisingIds ts) : RisingIds (ts.filter f) :=
  h.sublist (List.filter_sublist.map _)

theorem oldestIn_foldl (seq : Word32) (t : Track) (ts : List Track) (h : RisingIds (t :: ts)) :
    OldestIn seq (t :: ts) (ts.foldl (olderOf seq) t) := by
  induction ts generalizing t with
  | nil =>
    refine ⟨by simp, fun u hu => ?_⟩
    rw [List.mem_singleton] at hu
    subst hu
    exact ⟨le_refl _, fun _ => le_refl _⟩
  | cons x xs ih =>
    obtain ⟨htail, hlt⟩ := risingIds_cons h
    obtain ⟨hxs, hxlt⟩ := risingIds_cons htail
    have htxs : RisingIds (t :: xs) := List.Pairwise.cons
      (fun i hi => by
        obtain ⟨u, hu, rfl⟩ := List.mem_map.mp hi
        exact hlt u (List.mem_cons_of_mem _ hu)) hxs
    have hid : t.id < x.id := hlt x (by simp)
    have holder : olderOf seq t x = if (seq - t.firstSeq).toNat < (seq - x.firstSeq).toNat then x else t := rfl
    rw [List.foldl_cons, holder]
    split
    · next hx =>
      obtain ⟨hmem, hold⟩ := ih x htail
      refine ⟨List.mem_cons_of_mem _ hmem, fun u hu => ?_⟩
      rcases List.mem_cons.mp hu with rfl | hu
      · have := (hold x (by simp)).1
        exact ⟨by omega, fun he => by omega⟩
      · exact hold u hu
    · next hx =>
      obtain ⟨hmem, hold⟩ := ih t htxs
      have htold := hold t (by simp)
      refine ⟨?_, fun u hu => ?_⟩
      · rcases List.mem_cons.mp hmem with hm | hm
        · rw [hm]
          simp
        · exact List.mem_cons_of_mem _ (List.mem_cons_of_mem _ hm)
      · rcases List.mem_cons.mp hu with rfl | hu
        · exact htold
        · rcases List.mem_cons.mp hu with rfl | hu
          · refine ⟨by omega, fun he => ?_⟩
            have := htold.2 (by omega)
            omega
          · exact hold u (List.mem_cons_of_mem _ hu)

theorem eq_of_id_eq {ts : List Track} {t u : Track} (h : RisingIds ts) (ht : t ∈ ts) (hu : u ∈ ts) (hid : t.id = u.id) :
    t = u := by
  have hnodup : (ts.map Track.id).Nodup := h.imp fun hab => Nat.ne_of_lt hab
  exact List.inj_on_of_nodup_map hnodup ht hu hid

theorem oldestIn_unique {seq : Word32} {ts : List Track} {t u : Track} (h : RisingIds ts) (ht : OldestIn seq ts t)
    (hu : OldestIn seq ts u) : t = u := by
  have htu := ht.2 u hu.1
  have hut := hu.2 t ht.1
  refine eq_of_id_eq h ht.1 hu.1 (Nat.le_antisymm (htu.2 (by omega)) (hut.2 (by omega)))

theorem oldestOf_eq_some {seq : Word32} {ts : List Track} {t : Track} (h : RisingIds ts) :
    oldestOf seq ts = some t ↔ OldestIn seq ts t := by
  cases ts with
  | nil => simp [oldestOf]
  | cons x xs =>
    have hfold := oldestIn_foldl seq x xs h
    rw [oldestOf, Option.some.injEq]
    constructor
    · rintro rfl
      exact hfold
    · exact fun ht => oldestIn_unique h hfold ht

/-- R92, R93: the track that a run extends. -/
theorem extendedBy_eq_some {l : LineRuns} {old : List Track} {r : Run} {t : Track} (h : RisingIds old) :
    extendedBy l old r = some t ↔ t ∈ old ∧ TakesRun l old r t := by
  rw [extendedBy, oldestOf_eq_some (risingIds_filter _ h)]
  simp only [OldestIn, TakesRun, List.mem_filter, isCandidate_iff, and_imp, and_assoc]

theorem extendedBy_eq_none {l : LineRuns} {old : List Track} {r : Run} :
    extendedBy l old r = none ↔ ∀ u ∈ old, ¬SpanMeets l.ls r u := by
  have hnone (ts : List Track) : oldestOf l.seq ts = none ↔ ts = [] := by cases ts <;> simp [oldestOf]
  rw [extendedBy, hnone, List.filter_eq_nil_iff]
  simp only [isCandidate_iff]

/-! ## What a line makes of an open track (R94 to R98, R102) -/

theorem extendedBy_id_iff {l : LineRuns} {old : List Track} {r : Run} {t : Track} (h : RisingIds old) (ht : t ∈ old) :
    (extendedBy l old r).map Track.id = some t.id ↔ TakesRun l old r t := by
  rw [Option.map_eq_some_iff]
  constructor
  · rintro ⟨u, hu, hid⟩
    obtain ⟨hmem, htakes⟩ := (extendedBy_eq_some h).mp hu
    rwa [← eq_of_id_eq h hmem ht hid]
  · exact fun htakes => ⟨t, (extendedBy_eq_some h).mpr ⟨ht, htakes⟩, rfl⟩

theorem runsOf_eq {l : LineRuns} {old : List Track} {t : Track} (h : RisingIds old) (ht : t ∈ old) :
    runsOf l old t = runsTaken l old t := by
  refine List.filter_congr fun r _ => ?_
  rw [decide_eq_decide]
  exact extendedBy_id_iff h ht

theorem isJoinedBy_eq {l : LineRuns} {old : List Track} {t : Track} (h : RisingIds old) (ht : t ∈ old) :
    isJoinedBy l old t = l.runs.any fun r => decide (SpanMeets l.ls r t ∧ ¬TakesRun l old r t) := by
  unfold isJoinedBy
  congr 1
  funext r
  rw [Bool.eq_iff_iff, Bool.and_eq_true, isCandidate_iff, decide_eq_true_eq, decide_eq_true_eq, ← extendedBy_id_iff h ht]

/-- R95: the figures of a track after runs are added to it, each but the saturating ones without a limit. -/
theorem foldl_addRun (rs : List Run) (t : Track) :
    rs.foldl addRun t =
      { t with
        area := if rs = [] then t.area else min (t.area + (rs.map Run.area).sum) 65535
        peak := (rs.map Run.peak).foldl max t.peak
        sum := if rs = [] then t.sum else min (t.sum + (rs.map Run.sum).sum) 4294967295
        overLo := (rs.map Run.lo).foldl min t.overLo
        overHi := (rs.map Run.hi).foldl max t.overHi
        inMark := t.inMark || rs.any Run.inMark } := by
  induction rs generalizing t with
  | nil => simp
  | cons r rs ih =>
    have hsat (a b c m : Nat) : min (min (a + b) m + c) m = min (a + (b + c)) m := by omega
    rw [List.foldl_cons, ih]
    cases rs with
    | nil => simp [addRun, sat16, sat32]
    | cons x xs => simp [addRun, sat16, sat32, hsat, Bool.or_assoc]

theorem foldl_min_map (rs : List Run) (f : Run → Nat) (a : Nat) :
    rs.foldl (fun m x => min m (f x)) a = (rs.map f).foldl min a := by
  rw [List.foldl_map]

theorem foldl_max_map (rs : List Run) (f : Run → Nat) (a : Nat) :
    rs.foldl (fun m x => max m (f x)) a = (rs.map f).foldl max a := by
  rw [List.foldl_map]

/-- R94 to R98, R102: an open track after the line. -/
theorem matchTrack_eq {l : LineRuns} {old : List Track} {t : Track} (h : RisingIds old) (ht : t ∈ old) :
    matchTrack l old t = trackAfter l old t := by
  unfold matchTrack trackAfter
  rw [runsOf_eq h ht, isJoinedBy_eq h ht]
  cases runsTaken l old t with
  | nil => simp
  | cons r rs =>
    simp only [extendTrack, foldl_addRun, foldl_min_map, foldl_max_map, List.map_cons, List.min?_cons', List.max?_cons',
      Option.getD_some, reduceCtorEq, if_false, sat16]

theorem map_matchTrack {l : LineRuns} {old : List Track} (h : RisingIds old) :
    old.map (matchTrack l old) = old.map (trackAfter l old) :=
  List.map_congr_left fun _ ht => matchTrack_eq h ht

theorem agedTracks_eq {l : LineRuns} {old : List Track} (h : RisingIds old) :
    (old.map (matchTrack l old)).filter (agesOut l.g) = agedTracks l old := by
  rw [map_matchTrack h]
  rfl

theorem keptTracks_eq {l : LineRuns} {old : List Track} (h : RisingIds old) :
    ((old.map (matchTrack l old)).filter fun t => !agesOut l.g t) = keptTracks l old := by
  rw [map_matchTrack h]
  refine List.filter_congr fun t _ => ?_
  rw [agesOut, ← decide_not, decide_eq_decide]
  omega

theorem runsToOpen_eq (l : LineRuns) (old : List Track) : runsToOpen l old = newRuns l old := by
  refine List.filter_congr fun r _ => ?_
  rw [Bool.eq_iff_iff, decide_eq_true_eq]
  simp only [Bool.not_eq_true', List.any_eq_false, isCandidate_iff]

/-! ## Tracks opened in the lowest FREE entries (R100, R101) -/

/-- A list of tracks in the order of the entries `a` to `a + n − 1`. -/
def byEntry (a n : Nat) (ts : List Track) : List Track :=
  (List.range' a n).filterMap fun i => ts.find? fun t => decide (t.id = i)

/-- Tracks in rising ID stand in the order of their entries. -/
theorem byEntry_rising {a n : Nat} {ts : List Track} (h : RisingIds ts) (hlo : ∀ t ∈ ts, a ≤ t.id) (hhi : ∀ t ∈ ts, t.id < a + n) :
    byEntry a n ts = ts := by
  induction n generalizing a ts with
  | zero =>
    cases ts with
    | nil => rfl
    | cons t ts =>
      have h1 := hlo t (by simp)
      have h2 := hhi t (by simp)
      omega
  | succ n ih =>
    rw [byEntry, List.range'_succ, List.filterMap_cons]
    cases ts with
    | nil => simp
    | cons t ts =>
      obtain ⟨hts, hlt⟩ := risingIds_cons h
      rcases Nat.lt_or_ge a t.id with ha | ha
      · have hnone : (t :: ts).find? (fun u => decide (u.id = a)) = none :=
          List.find?_eq_none.mpr fun u hu => by
            rcases List.mem_cons.mp hu with rfl | hu
            · simpa using ha.ne'
            · simpa using (ha.trans (hlt u hu)).ne'
        rw [hnone]
        refine ih h (fun u hu => ?_) fun u hu => by have := hhi u hu; omega
        rcases List.mem_cons.mp hu with rfl | hu
        · exact ha
        · exact ha.trans (hlt u hu)
      · have hid : t.id = a := Nat.le_antisymm ha (hlo t (by simp))
        rw [List.find?_cons_of_pos (by simpa using hid)]
        have hrest : (List.range' (a + 1) n).filterMap (fun i => (t :: ts).find? fun u => decide (u.id = i)) =
            byEntry (a + 1) n ts := by
          refine List.filterMap_congr fun i hi => ?_
          rw [List.mem_range'_1] at hi
          exact List.find?_cons_of_neg (by simp; omega)
        simp only [hrest]
        rw [ih hts (fun u hu => by have := hlt u hu; omega) fun u hu => by
          have := hhi u (List.mem_cons_of_mem _ hu)
          omega]

/-- The entries FREE of a list of tracks, rising. -/
def freeOf (ts : List Track) : List Nat := (List.range 32).filter fun i => decide (∀ t ∈ ts, t.id ≠ i)

theorem lowestFree_eq (ts : List Track) : lowestFree ts = (freeOf ts).head? := by
  rw [freeOf, List.head?_filter, lowestFree]
  congr 1
  funext i
  rw [Bool.eq_iff_iff, decide_eq_true_eq]
  simp

theorem find?_insertTrack {x : Track} {ts : List Track} (hx : ∀ u ∈ ts, u.id ≠ x.id) (i : Nat) :
    (insertTrack x ts).find? (fun t => decide (t.id = i)) =
      if x.id = i then some x else ts.find? fun t => decide (t.id = i) := by
  induction ts with
  | nil => by_cases h : x.id = i <;> simp [insertTrack, h]
  | cons t ts ih =>
    have ht : t.id ≠ x.id := hx t (by simp)
    unfold insertTrack
    split
    · by_cases h : x.id = i <;> simp [h]
    · rw [List.find?_cons, ih fun u hu => hx u (List.mem_cons_of_mem _ hu), List.find?_cons]
      by_cases h : x.id = i
      · have hti : t.id ≠ i := h ▸ ht
        simp [h, hti]
      · simp only [h, if_false]

/-- R100: with the lowest FREE entry taken, the others stay FREE. -/
theorem freeOf_insertTrack {x : Track} {ts : List Track} {F : List Nat} (hF : freeOf ts = x.id :: F) :
    freeOf (insertTrack x ts) = F := by
  have hnodup : (freeOf ts).Nodup := List.nodup_range.filter _
  have hsplit : freeOf (insertTrack x ts) = (freeOf ts).filter fun i => decide (x.id ≠ i) := by
    rw [freeOf, freeOf, List.filter_filter]
    refine List.filter_congr fun i _ => ?_
    rw [Bool.eq_iff_iff, Bool.and_eq_true, decide_eq_true_eq, decide_eq_true_eq, decide_eq_true_eq]
    simp only [(insertTrack_perm x ts).mem_iff, List.mem_cons, forall_eq_or_imp]
  rw [hF, List.nodup_cons] at hnodup
  rw [hsplit, hF, List.filter_cons_of_neg (by simp)]
  exact List.filter_eq_self.mpr fun i hi => by
    have : x.id ≠ i := fun h => hnodup.1 (h ▸ hi)
    simpa using this

theorem openRuns_eq (l : LineRuns) (rs : List Run) (ts : List Track) (h : TracksSound ts) :
    openRuns l rs ts = byEntry 0 32 (ts ++ List.zipWith (trackOpened l) (freeOf ts) rs) := by
  have hself {ts : List Track} (h : TracksSound ts) : ts = byEntry 0 32 (ts ++ []) := by
    rw [List.append_nil, byEntry_rising h.2.1 (fun _ _ => Nat.zero_le _) fun t ht => by simpa using h.2.2 t ht]
  induction rs generalizing ts with
  | nil =>
    rw [List.zipWith_nil_right]
    exact hself h
  | cons r rs ih =>
    unfold openRuns
    rw [lowestFree_eq]
    cases hF : freeOf ts with
    | nil =>
      rw [List.zipWith_nil_left]
      exact hself h
    | cons i F =>
      have hmem : i ∈ freeOf ts := by simp [hF]
      obtain ⟨hi, hfree⟩ : i < 32 ∧ ∀ t ∈ ts, t.id ≠ i := by simpa [freeOf] using hmem
      have hsound : TracksSound (insertTrack (openTrack l r i) ts) := tracksSound_insert hi hfree h
      have hrest : freeOf (insertTrack (openTrack l r i) ts) = F := freeOf_insertTrack hF
      simp only [List.head?_cons]
      rw [ih _ hsound, hrest, List.zipWith_cons_cons, byEntry, byEntry]
      refine List.filterMap_congr fun j _ => ?_
      rw [List.find?_append, List.find?_append, find?_insertTrack hfree, List.find?_cons]
      by_cases hj : i = j
      · have hnone : ts.find? (fun t => decide (t.id = j)) = none :=
          List.find?_eq_none.mpr fun t ht => by simpa using hj ▸ hfree t ht
        simp [openTrack, trackOpened, hj, hnone, sat16]
      · simp [openTrack, trackOpened, hj]

theorem tracksSound_kept {l : LineRuns} {old : List Track} (h : TracksSound old) : TracksSound (keptTracks l old) := by
  rw [← keptTracks_eq h.2.1]
  exact tracksSound_filter _ (tracksSound_match l old h)

theorem tracksAfter_eq {l : LineRuns} {old : List Track} (h : TracksSound old) :
    openRuns l (runsToOpen l old) ((old.map (matchTrack l old)).filter fun t => !agesOut l.g t) = tracksAfter l old := by
  rw [keptTracks_eq h.2.1, runsToOpen_eq, openRuns_eq l _ _ (tracksSound_kept h), byEntry, ← List.range_eq_range']
  rfl

theorem length_freeOf {ts : List Track} (h : TracksSound ts) : (freeOf ts).length = 32 - ts.length := by
  have hnodup : (ts.map Track.id).Nodup := h.2.1.imp fun hab => Nat.ne_of_lt hab
  have htaken : ((List.range 32).filter fun i => !decide (∀ t ∈ ts, t.id ≠ i)).Perm (ts.map Track.id) := by
    refine (List.perm_ext_iff_of_nodup (List.nodup_range.filter _) hnodup).mpr fun i => ?_
    simp only [List.mem_filter, List.mem_range, Bool.not_eq_true', decide_eq_false_iff_not, List.mem_map]
    constructor
    · rintro ⟨-, hi⟩
      simpa using hi
    · rintro ⟨t, ht, rfl⟩
      exact ⟨h.2.2 t ht, fun hno => hno t ht rfl⟩
  have hsplit := List.length_eq_length_filter_add (l := List.range 32) fun i => decide (∀ t ∈ ts, t.id ≠ i)
  have hlen := htaken.length_eq
  rw [List.length_map] at hlen
  rw [List.length_range, hlen] at hsplit
  unfold freeOf
  omega

theorem runsLost_eq {l : LineRuns} {old : List Track} (h : TracksSound old) :
    lostRuns (runsToOpen l old).length ((old.map (matchTrack l old)).filter fun t => !agesOut l.g t).length =
      runsLost l old := by
  rw [keptTracks_eq h.2.1, runsToOpen_eq, lostRuns, runsLost, ← length_freeOf (tracksSound_kept h)]
  rfl

/-! ## A line taken (R90 to R102) -/

/-- A classification changes of its channel the record alone. -/
theorem classify_chan (c : Chan) (set : ParamSet) (k : Closure) (s : State) :
    ∃ r, (classify c set k s).chan c = { s.chan c with record := r } := by
  cases hm : matchingEntry (heldW s) set k with
  | none =>
    rw [classify_unmatched hm, belowClass, modTallies_chan_same]
    exact ⟨_, rfl⟩
  | some e =>
    have hchans := (produce_rest (.defect (defectGiven c set e k s)) (requested c set e k s)).1.trans
      (requested_rest c set e k s).1
    rw [classify_matched hm, modRecord_chan_same, State.chan, hchans]
    exact ⟨_, rfl⟩

theorem classifyTracks_chan (c : Chan) (set : ParamSet) (cause : Cause) (ts : List Track) (s : State) :
    ∃ r, (classifyTracks c set cause ts s).chan c = { s.chan c with record := r } := by
  unfold classifyTracks
  induction ts generalizing s with
  | nil => exact ⟨(s.chan c).record, rfl⟩
  | cons t ts ih =>
    obtain ⟨r, hr⟩ := ih (classify c set (trackClosure cause t) s)
    obtain ⟨r', hr'⟩ := classify_chan c set (trackClosure cause t) s
    refine ⟨r, ?_⟩
    rw [List.foldl_cons, hr, hr']

theorem takeLine_eq {c : Chan} (set : ParamSet) (l : LineRuns) {s : State} (h : TracksSound (s.chan c).tracks) :
    takeLine c set l s =
      countLostRuns c (runsLost l (s.chan c).tracks)
        (handedOver c set .gap (agedTracks l (s.chan c).tracks)
          (setChan c { s.chan c with tracks := tracksAfter l (s.chan c).tracks } s)) := by
  simp only [takeLine, runsLost_eq h, tracksAfter_eq h, agedTracks_eq h.2.1]
  rfl

/-- R101: runs lost are counted and TRACK_FULL latched. -/
theorem countLostRuns_rest (c : Chan) (n : Nat) (u : State) :
    (countLostRuns c n u).chans = u.chans ∧ (countLostRuns c n u).ring = u.ring ∧
      (countLostRuns c n u).strands = u.strands ∧ (countLostRuns c n u).status.partCounters = u.status.partCounters ∧
      (countLostRuns c n u).status.part.latched = u.status.part.latched ∧ (n = 0 → countLostRuns c n u = u) ∧
      (1 ≤ n →
        (countLostRuns c n u).status.counters =
          u.status.counters.set c
            { u.status.counters.get c with trackFull := min ((u.status.counters.get c).trackFull + n) 65535 } ∧
        ((countLostRuns c n u).status.words.get c).latched = (u.status.words.get c).latched ||| 32) := by
  unfold countLostRuns
  split
  · next h => exact ⟨rfl, rfl, rfl, rfl, rfl, fun _ => rfl, fun h1 => by omega⟩
  · next h =>
    have hoffers := latchChan_offersOnly c .trackFull
      (modCounters c (fun k => { k with trackFull := sat16 (k.trackFull + n) }) u)
    refine ⟨hoffers.chans, hoffers.ring, hoffers.strands, hoffers.partCounters, ?_, fun h0 => absurd h0 h, fun _ =>
      ⟨hoffers.counters, ?_⟩⟩
    · exact congrArg CondWord.latched
        (condWordOf_latchBit_other (o := .chan c) (p := .part) _ _ (by simp))
    · exact congrArg CondWord.latched (condWordOf_latchBit_same (.chan c) _ _)

/-- Settles O57: R93's choice, then the table after the line and the runs lost. -/
theorem runsExtendTheOldestCandidate : Obligations.RunsExtendTheOldestCandidate := by
  refine ⟨fun l old r h => ⟨fun u => isCandidate_iff, extendedBy_eq_none, fun t => extendedBy_eq_some h⟩, ?_⟩
  rintro c set l old s t u rfl hsound rfl rfl
  obtain ⟨hchans, hring, hstrands, hpart, hlatched, hnone, hlost⟩ := countLostRuns_rest c (runsLost l (s.chan c).tracks)
    (handedOver c set .gap (agedTracks l (s.chan c).tracks)
      (setChan c { s.chan c with tracks := tracksAfter l (s.chan c).tracks } s))
  rw [takeLine_eq set l hsound]
  refine ⟨?_, hchans, hring, hstrands, hpart, hlatched, hnone, hlost⟩
  obtain ⟨r, hr⟩ := classifyTracks_chan c set .gap (agedTracks l (s.chan c).tracks)
    (setChan c { s.chan c with tracks := tracksAfter l (s.chan c).tracks } s)
  rw [chan_setChan_same] at hr
  rw [State.chan, hchans]
  exact congrArg Channel.tracks hr

end Sys2Proof.Machine
end

section
/-! The engine's grant, the hold and stall timers, and the snapshot timer (R20, R32, R45, R46, R179, R189). -/

namespace Sys2Proof

theorem Bank4.set_get_self {α : Type} (b : Bank4 α) (i : Fin 4) : b.set i (b.get i) = b := by
  match i with
  | 0 | 1 | 2 | 3 => rfl

theorem Bank16.set_get_self {α : Type} (b : Bank16 α) (c : Chan) : b.set c (b.get c) = b := by
  simp only [Bank16.set, Bank16.get, Bank4.set_get_self]

end Sys2Proof

namespace Sys2Proof.Machine

open Sys2Proof.Safety

/-! ## A channel replaced -/

theorem setChan_self (c : Chan) (s : State) : setChan c (s.chan c) s = s := by
  have h : s.chans.set c (s.chan c) = s.chans := Bank16.set_get_self s.chans c
  rw [setChan, h]

theorem setChan_setChan (c : Chan) (a b : Channel) (s : State) : setChan c b (setChan c a s) = setChan c b s := by
  simp only [setChan, Bank16.set_set]

theorem chan_of_chans {s t : State} (h : t.chans = s.chans) (c : Chan) : t.chan c = s.chan c :=
  congrArg (fun b : Bank16 Channel => b.get c) h

/-! ## The switch to a waiting set (R179, R85) -/

theorem switchParams_eq (c : Chan) (s : State) : switchParams c s = setChan c (switched (s.chan c)) s := by
  unfold switchParams switched
  cases (s.chan c).waiting with
  | none => exact (setChan_self c s).symm
  | some p =>
    simp only [recomputePitch, modChan_modChan]
    rfl

/-- R179: the channel as a line handed at its head finds it. -/
def switchedIfInspecting (ch : Channel) : Channel := if ch.record.state = .inspecting then switched ch else ch

theorem switchInspecting_eq (c : Chan) (s : State) : switchInspecting c s = setChan c (switchedIfInspecting (s.chan c)) s := by
  unfold switchInspecting switchedIfInspecting
  cases (s.chan c).record.state with
  | inspecting => exact switchParams_eq c s
  | off => exact (setChan_self c s).symm
  | waiting => exact (setChan_self c s).symm
  | stalled => exact (setChan_self c s).symm
  | passOnly => exact (setChan_self c s).symm

theorem switched_rest (ch : Channel) :
    (switched ch).record = ch.record ∧ (switched ch).capture = ch.capture ∧ (switched ch).tracks = ch.tracks ∧
      (switched ch).held = ch.held ∧ (switched ch).background = ch.background ∧ (switched ch).waiting = none ∧
      (switched ch).params = ch.waiting.getD ch.params := by
  unfold switched
  cases h : ch.waiting <;> simp [h]

theorem switchedIfInspecting_rest (ch : Channel) :
    (switchedIfInspecting ch).record = ch.record ∧ (switchedIfInspecting ch).capture = ch.capture ∧
      (switchedIfInspecting ch).tracks = ch.tracks ∧ (switchedIfInspecting ch).held = ch.held ∧
      (switchedIfInspecting ch).background = ch.background := by
  obtain ⟨hrecord, hcapture, htracks, hheld, hbackground, -, -⟩ := switched_rest ch
  unfold switchedIfInspecting
  split
  · exact ⟨hrecord, hcapture, htracks, hheld, hbackground⟩
  · exact ⟨rfl, rfl, rfl, rfl, rfl⟩

theorem switchedIfInspecting_params (ch : Channel) :
    (switchedIfInspecting ch).params = if ch.record.state = .inspecting then ch.waiting.getD ch.params else ch.params := by
  obtain ⟨-, -, -, -, -, -, hparams⟩ := switched_rest ch
  unfold switchedIfInspecting
  split
  · exact hparams
  · rfl

/-! ## The end of a command in progress (R174, R179) -/

theorem doneWord_eq (r : Running) :
    commandStatusWord r.tag r.code .done r.isPartial (decide (1 ≤ r.clamped)) r.geometryHeld 0 r.clamped = doneWord r := by
  obtain ⟨tag, code, isPartial, clamped, geometryHeld⟩ := r
  have hflags (p : Bool) (n : Nat) (g : Bool) :
      field 1 (flagAt 0 p + flagAt 1 (decide (1 ≤ n)) + flagAt 2 g) =
        [(if p = true then 1 else 0) + (if 1 ≤ n then 2 else 0) + (if g = true then 4 else 0)] := by
    by_cases hn : 1 ≤ n <;> cases p <;> cases g <;> simp [hn, flagAt, field, leBytes]
  rw [commandStatusWord, hflags]
  rfl

theorem anyWaiting_eq_false {s : State} : anyWaiting s = false ↔ ∀ c : Chan, (s.chan c).waiting = none := by
  simp only [anyWaiting, List.any_eq_false, mem_allChans, true_imp_iff, Option.not_isSome_iff_eq_none]

theorem settleCommand_offersOnly (s : State) :
    ∃ k, OffersOnly (setCommand k s) (settleCommand s) ∧ (settleCommand s).status = s.status := by
  unfold settleCommand
  split
  · split
    · exact ⟨.ready, endCommand_rest _ _ _ s, endCommand_status _ _ _ s⟩
    · exact ⟨s.setup.command, .refl s, rfl⟩
  · exact ⟨s.setup.command, .refl s, rfl⟩

/-- R179: an APPLY in progress ends DONE once no set waits. -/
theorem settleCommand_apply_done {r : Running} {s : State} (hr : s.setup.command = .inProgress r) (hcode : r.code = 1)
    (h : ∀ c : Chan, (s.chan c).waiting = none) :
    (settleCommand s).setup.command = .ready ∧ WordOffered 0x2000 (doneWord r) (settleCommand s) := by
  have hdone : commandDone r s = true := by
    rw [commandDone, hcode]
    simpa using anyWaiting_eq_false.mpr h
  have hsettled : settleCommand s = endCommand r .done 0 s := by
    rw [settleCommand, hr]
    exact if_pos hdone
  rw [hsettled, ← doneWord_eq]
  exact ⟨congrArg Setup.command (endCommand_rest r .done 0 s).setup, wordOffered_endCommand r .done 0 s⟩

theorem settleCommand_apply_waits {r : Running} {s : State} (hr : s.setup.command = .inProgress r) (hcode : r.code = 1)
    (h : ∃ c : Chan, (s.chan c).waiting ≠ none) : settleCommand s = s := by
  have hwaits : anyWaiting s = true := by
    rw [← Bool.not_eq_false, anyWaiting_eq_false]
    push Not
    exact h
  have hdone : commandDone r s = false := by
    rw [commandDone, hcode]
    simpa using hwaits
  rw [settleCommand, hr]
  exact if_neg (by simp [hdone])

/-! ## The grant (R44 to R46) -/

theorem allChans_getElem (j : Nat) (h : j < allChans.length) : allChans[j] = ⟨j, h⟩ := by
  have hall : ∀ k : Fin 16, allChans[k.val]'k.isLt = k := by decide
  exact hall ⟨j, h⟩

theorem find?_allChans {p : Chan → Bool} {d : Chan} (hd : p d = true) (hfirst : ∀ k : Chan, k < d → p k = false) :
    allChans.find? p = some d := by
  refine List.find?_eq_some_iff_getElem.mpr ⟨hd, d.val, d.isLt, allChans_getElem _ _, fun j hj => ?_⟩
  rw [allChans_getElem, hfirst _ (Fin.mk_lt_of_lt_val hj)]
  rfl

theorem nextChannel_eq {s : State} {d c : Chan} (hc : c = s.engine.lastServed + 1 + d) (hreq : requests s c = true)
    (hfirst : ∀ k : Fin 16, k < d → requests s (s.engine.lastServed + 1 + k) = false) : nextChannel s = some c := by
  have hfind : allChans.find? (fun i => requests s (s.engine.lastServed + 1 + i)) = some d :=
    find?_allChans (by rwa [← hc]) hfirst
  rw [nextChannel, serviceOrder, List.find?_map, Function.comp_def, hfind, hc]
  rfl

/-- R46: channel `c` as its head entry `e` is granted the engine. -/
def engagedChan (e : Fin 2) (ch : Channel) : Channel :=
  { switchedIfInspecting ch with
    capture := setEntry ch.capture e { entryOf ch.capture e with state := .engaged } }

/-- R28, R46: the engine granted to channel `c`. -/
def grantedEngine (c : Chan) (e : Fin 2) (ch : Channel) : Engine :=
  { analysis := some
      { chan := c
        role := if (entryOf ch.capture e).isHead = true then .seed else if 1 ≤ ch.record.warmupLeft then .warmup else .ordinary
        params := (switchedIfInspecting ch).params }
    lastServed := c }

theorem grantEngine_eq (c : Chan) (e : Fin 2) (s : State) :
    grantEngine c e s =
      { setChan c (engagedChan e (s.chan c)) s with engine := grantedEngine c e (s.chan c) } := by
  obtain ⟨hrecord, hcapture, -⟩ := switchedIfInspecting_rest (s.chan c)
  have hengine : (⟨some ⟨c, roleOf (entryOf ((switchInspecting c s).chan c).capture e) ((switchInspecting c s).chan c).record,
      ((switchInspecting c s).chan c).params⟩, c⟩ : Engine) = grantedEngine c e (s.chan c) := by
    rw [switchInspecting_eq, chan_setChan_same, hcapture, hrecord]
    rfl
  unfold grantEngine
  simp only [hengine]
  rw [switchInspecting_eq]
  change modChan c _ (setChan c _ { s with engine := grantedEngine c e (s.chan c) }) = _
  unfold modChan
  rw [chan_setChan_same, setChan_setChan]
  dsimp only
  rw [hcapture]
  rfl

/-- Settles O31: the first request in the order of service, and none. -/
theorem engineGrantServesTheNextRequest : Obligations.EngineGrantServesTheNextRequest := by
  intro s
  refine ⟨fun d e c hc hidle hreq hfirst hhead => ?_, fun hnone => ?_⟩
  · have hgrant : grantable s = some (c, e) := by
      rw [grantable, hidle, nextChannel_eq hc hreq hfirst]
      simp [hhead]
    obtain ⟨u, hu⟩ : ∃ u, u = grantEngine c e s := ⟨_, rfl⟩
    have hexec : exec .engineGrant s = .next (settleCommand u) := by
      change execEngineGrant s = _
      rw [execEngineGrant, hgrant, hu]
    rw [grantEngine_eq] at hu
    obtain ⟨k, hoffers, -⟩ := settleCommand_offersOnly u
    have huc : u.chan c = engagedChan e (s.chan c) := by rw [hu]; exact chan_setChan_same s c _
    have hux (x : Chan) (hx : x ≠ c) : u.chan x = s.chan x := by rw [hu]; exact chan_setChan_other s _ hx
    have htc : (settleCommand u).chan c = engagedChan e (s.chan c) := (hoffers.chan c).trans huc
    obtain ⟨hrecord, -, htracks, hheld, hbackground⟩ := switchedIfInspecting_rest (s.chan c)
    refine ⟨_, hexec, ?_, ?_, ?_, ?_, ?_, ?_, ?_, fun x hx => (hoffers.chan x).trans (hux x hx),
      hoffers.ring.trans (by rw [hu]; rfl), hoffers.strands.trans (by rw [hu]; rfl), fun r hr hcode => ⟨fun hothers hown => ?_, ?_⟩⟩
    · refine hoffers.engine.trans ?_
      rw [hu]
      simp only [setCommand_engine, grantedEngine, switchedIfInspecting_params]
    · rw [htc]
      rfl
    · rw [htc]
      exact hrecord
    · rw [htc]
      exact htracks
    · rw [htc]
      exact hheld
    · rw [htc]
      exact hbackground
    · rw [htc]
      split
      · next hstate =>
        have hsw : switchedIfInspecting (s.chan c) = switched (s.chan c) := if_pos hstate
        obtain ⟨-, -, -, -, -, hwaiting, hparams⟩ := switched_rest (s.chan c)
        simp only [engagedChan, hsw, hwaiting, hparams, true_and]
        unfold switched
        cases (s.chan c).waiting <;> rfl
      · next hstate =>
        have hsw : switchedIfInspecting (s.chan c) = s.chan c := if_neg hstate
        simp only [engagedChan, hsw, and_self]
    · refine settleCommand_apply_done (by rw [hu]; exact hr) hcode fun x => ?_
      by_cases hx : x = c
      · subst hx
        rw [huc]
        simp only [engagedChan, switchedIfInspecting]
        split
        · exact (switched_rest _).2.2.2.2.2.1
        · next hstate => exact hown.resolve_right hstate
      · rw [hux x hx]
        exact hothers x hx
    · rintro ⟨x, hx, hwaiting⟩
      rw [settleCommand_apply_waits (by rw [hu]; exact hr) hcode ⟨x, by rw [hux x hx]; exact hwaiting⟩, hu]
      rfl
  · have hgrant : grantable s = none := by
      unfold grantable
      rcases hnone with h | h
      · rw [if_neg (by simpa using h)]
      · have hnext : nextChannel s = none := List.find?_eq_none.mpr fun c _ => by simp [h c]
        rw [hnext]
        split <;> rfl
    change execEngineGrant s = _
    rw [execEngineGrant, hgrant]

/-! ## The hold timer (R20) -/

theorem latchChan_rest (c : Chan) (k : ChanCond) (s : State) :
    ((latchChan c k s).status.words.get c).latched = (s.status.words.get c).latched ||| condSet (chanCondBit k) :=
  congrArg CondWord.latched (condWordOf_latchBit_same (.chan c) (chanCondBit k) s)

/-- Settles O33: the release, the count and the condition, or nothing. -/
theorem holdExpiryReleasesTheTrailerPending : Obligations.HoldExpiryReleasesTheTrailerPending := by
  intro c e h s hheld
  have hexec : exec (.holdTimerExpiry c e) s =
      if h.length ≤ (s.us - h.start).toNat then .next (releasePending c h s) else .next s := by
    change execHoldTimerExpiry c e s = _
    rw [execHoldTimerExpiry, hheld]
    rfl
  refine ⟨fun hdue => ?_, fun hearly => by rw [hexec, if_neg (by omega)]⟩
  have hoffers := latchChan_offersOnly c .holdExpired
    (modCounters c (fun k => { k with pending := sat16 (k.pending + 1) }) (releaseTrailer c h (plainWord .pending) s))
  refine ⟨_, hexec.trans (if_pos hdue), (hoffers.chan c).trans (releaseTrailer_chan_same c h _ s), fun x hx =>
    (hoffers.chan x).trans (releaseTrailer_chan_other h _ s hx), hoffers.engine, hoffers.ring, ?_, ?_, latchChan_rest _ _ _⟩
  · refine hoffers.list.trans ((releaseTrailer_list c h (plainWord .pending) s).trans ?_)
    rw [show plainWord .pending = BitVec.ofNat 64 2 by decide]
  · exact (congrArg (fun b : Bank16 ChanCounters => b.get c) hoffers.counters).trans (Bank16.get_set_same _ c _)

/-! ## The stall timer (R32) -/

/-- R32: the channel as it becomes STALLED at millisecond `now`. -/
def stalledChan (now : Word32) (ch : Channel) : Channel :=
  { switched ch with
    record := { ch.record with
      state := .stalled, stall := none, abandon := some (freshAbandon now (switched ch).params.chan) } }

theorem stallChannel_eq (c : Chan) (s : State) : stallChannel c s = latchChan c .stall (setChan c (stalledChan s.ms (s.chan c)) s) := by
  unfold stallChannel
  rw [switchParams_eq, modChan, chan_setChan_same, setChan_setChan, (switched_rest (s.chan c)).1]
  rfl

/-- Settles O34: the switch, the change of state and the condition; then what an APPLY in progress makes of it. -/
theorem stallExpiryStallsTheChannel : Obligations.StallExpiryStallsTheChannel := by
  intro c tm s hstate hstall
  have hexec : exec (.stallTimerExpiry c) s =
      if timerDue s.ms tm then .next (settleCommand (stallChannel c s)) else .next s := by
    change execStallTimerExpiry c s = _
    rw [execStallTimerExpiry, hstate, hstall]
  refine ⟨fun hdue => ?_, fun hearly => by rw [hexec, if_neg fun h => by have := timerDue_iff.mp h; omega]⟩
  obtain ⟨-, hcapture, htracks, hheld, hbackground, hwaiting, hparams⟩ := switched_rest (s.chan c)
  have hlatch := latchChan_offersOnly c .stall (setChan c (stalledChan s.ms (s.chan c)) s)
  rw [← stallChannel_eq] at hlatch
  have huc : (stallChannel c s).chan c = stalledChan s.ms (s.chan c) := (hlatch.chan c).trans (chan_setChan_same s c _)
  have hux (x : Chan) (hx : x ≠ c) : (stallChannel c s).chan x = s.chan x :=
    (hlatch.chan x).trans (chan_setChan_other s _ hx)
  obtain ⟨k, hoffers, hstatus⟩ := settleCommand_offersOnly (stallChannel c s)
  have htc : (settleCommand (stallChannel c s)).chan c = stalledChan s.ms (s.chan c) := (hoffers.chan c).trans huc
  refine ⟨_, hexec.trans (if_pos (timerDue_iff.mpr hdue)), ?_, ?_, ?_, ?_, ?_, ?_, ?_,
    fun x hx => (hoffers.chan x).trans (hux x hx), hoffers.ring.trans hlatch.ring, ?_, fun r hr hcode => ⟨fun hothers => ?_, ?_⟩⟩
  · rw [htc]; exact hparams
  · rw [htc]; exact hwaiting
  · rw [htc]
    simp only [stalledChan, freshAbandon, hparams]
  · rw [htc]; exact hcapture
  · rw [htc]; exact htracks
  · rw [htc]; exact hheld
  · rw [htc]; exact hbackground
  · rw [hstatus, stallChannel_eq, latchChan_rest]
    rfl
  · refine settleCommand_apply_done (by rw [hlatch.setup]; exact hr) hcode fun x => ?_
    by_cases hx : x = c
    · subst hx
      rw [huc]
      exact hwaiting
    · rw [hux x hx]
      exact hothers x hx
  · rintro ⟨x, hx, hxw⟩
    rw [settleCommand_apply_waits (by rw [hlatch.setup]; exact hr) hcode ⟨x, by rw [hux x hx]; exact hxw⟩]
    exact hlatch.setup

/-! ## The status blocks (R189) -/

theorem field_length (n v : Nat) : (field n v).length = n := by
  have hbytes (n v : Nat) : (leBytes n v).length = n := by
    induction n generalizing v with
    | zero => rfl
    | succ n ih => rw [leBytes, List.length_cons, ih]
  exact hbytes n _

theorem channelBlock_length (ch : Channel) (k : ChanCounters) : (channelBlock ch k).length = 64 := by
  unfold channelBlock
  simp only [List.length_append, field_length, zeros, List.length_replicate]

theorem partBlock_length (s : State) : (partBlock s).length = 64 := by
  have hdepths (f : Strand → Nat) : (allStrands.flatMap fun k => field 1 (f k)).length = 4 := by
    simp only [allStrands, List.flatMap_cons, List.flatMap_nil, List.length_append, field_length, List.length_nil]
  simp only [partBlock, List.length_append, field_length, hdepths, zeros, List.length_replicate]

/-- R189: the STATUS write of channel `c`'s block. -/
def blockWrite (s : State) (c : Chan) : OutEntry :=
  { kind := .status, addr := setupBase s.setup.strap + statusBlockAt c.val, data := channelBlock (s.chan c) (s.status.counters.get c) }

theorem offerStatusTo_append {a : Nat} {d : List Byte} {p : Path} (ha : p.queue.any (sameAddress a) = false)
    (hlen : p.queue.length < 24) :
    offerStatusTo a d p = { p with queue := p.queue ++ [{ kind := .status, addr := a, data := d }] } := by
  rw [offerStatusTo, if_neg (by simp [ha]), if_pos hlen]

/-- R189: channel blocks offered with room are queued in the order in which they are offered. -/
theorem foldl_offerChannelBlock (cs : List Chan) (s : State) (hnodup : cs.Nodup) (hlen : s.path.queue.length + cs.length ≤ 24)
    (hnew : ∀ c ∈ cs, s.path.queue.any (sameAddress (setupBase s.setup.strap + statusBlockAt c.val)) = false) :
    cs.foldl (fun u c => offerChannelBlock c u) s =
      { s with path := { s.path with queue := s.path.queue ++ cs.map (blockWrite s) } } := by
  induction cs generalizing s with
  | nil => simp
  | cons c cs ih =>
    obtain ⟨hc, hcs⟩ := List.nodup_cons.mp hnodup
    rw [List.length_cons] at hlen
    have hoffer : offerChannelBlock c s = { s with path := { s.path with queue := s.path.queue ++ [blockWrite s c] } } := by
      unfold offerChannelBlock offerStatus modPath
      rw [offerStatusTo_append (hnew c (by simp)) (by omega)]
      rfl
    rw [List.foldl_cons, hoffer, ih _ hcs (by simp; omega) fun d hd => ?_]
    · simp only [List.append_assoc, List.singleton_append, List.map_cons]
      rfl
    · have hdc : d.val ≠ c.val := fun h => hc (Fin.ext h ▸ hd)
      rw [List.any_append, hnew d (List.mem_cons_of_mem _ hd)]
      simp [sameAddress, blockWrite, statusBlockAt]
      omega

/-- Settles O53: the 17 blocks in their order, the part-wide block last. -/
theorem snapshotOffersSeventeenBlocks : Obligations.SnapshotOffersSeventeenBlocks := by
  intro tm s hsnap
  have hexec : exec .snapshotExpiry s =
      if timerDue s.ms tm then
        .next (offerBlocks (modStatus (fun st => { st with snapshot := some { tm with start := s.ms } }) s))
      else .next s := by
    change execSnapshotExpiry s = _
    rw [execSnapshotExpiry, hsnap]
  refine ⟨fun hdue hroom hnew => ?_, fun hearly => by rw [hexec, if_neg fun h => by have := timerDue_iff.mp h; omega]⟩
  obtain ⟨u, hu⟩ : ∃ u, u = modStatus (fun st => { st with snapshot := some { tm with start := s.ms } }) s := ⟨_, rfl⟩
  have hblocks := foldl_offerChannelBlock allChans u (by decide)
    (by rw [hu]; change s.path.queue.length + 16 ≤ 24; omega)
    (fun c _ => by rw [hu]; exact hnew c.val (by omega))
  obtain ⟨v, hv⟩ : ∃ v, v = allChans.foldl (fun u c => offerChannelBlock c u) u := ⟨_, rfl⟩
  rw [← hv] at hblocks
  have hvnew : v.path.queue.any (sameAddress (setupBase v.setup.strap + statusBlockAt 16)) = false := by
    have hold := hnew 16 (by decide)
    rw [hblocks, List.any_append, hu]
    refine Bool.or_eq_false_iff.mpr ⟨hold, List.any_eq_false.mpr fun e he => ?_⟩
    obtain ⟨c, -, rfl⟩ := List.mem_map.mp he
    simp [sameAddress, blockWrite, statusBlockAt]
    omega
  have hvlen : v.path.queue.length < 24 := by
    rw [hblocks, hu]
    simp only [modStatus_path, List.length_append, List.length_map, show allChans.length = 16 from rfl]
    omega
  have hfinal : offerBlocks u =
      { v with path := { v.path with
          queue := v.path.queue ++
            [{ kind := .status, addr := setupBase v.setup.strap + statusBlockAt 16, data := partBlock v }] } } := by
    rw [offerBlocks, ← hv]
    unfold offerStatus modPath
    rw [offerStatusTo_append hvnew hvlen]
  refine ⟨_, allChans.map (blockWrite s) ++
    [{ kind := .status, addr := setupBase s.setup.strap + statusBlockAt 16, data := partBlock v }],
    hexec.trans (if_pos (timerDue_iff.mpr hdue)), ?_⟩
  rw [← hu, hfinal, hblocks, hu]
  have hnums : (List.range 17).map (fun i => (WriteKind.status, setupBase s.setup.strap + (0x2400 + 64 * i), 64)) =
      allChans.map (fun c => (WriteKind.status, setupBase s.setup.strap + statusBlockAt c.val, 64)) ++
        [(WriteKind.status, setupBase s.setup.strap + statusBlockAt 16, 64)] := rfl
  refine ⟨by simp only [List.append_assoc]; rfl, ?_, fun c => ?_, ?_, rfl, rfl, rfl, rfl, rfl, rfl⟩
  · rw [hnums, List.map_append, List.map_map, List.map_singleton, partBlock_length]
    exact congrArg (· ++ _) (List.map_congr_left fun c _ => by simp [blockWrite, channelBlock_length])
  · have hc : c.val < (allChans.map (blockWrite s)).length := c.isLt
    rw [List.getElem?_append_left hc, List.getElem?_map, List.getElem?_eq_getElem (show c.val < allChans.length from c.isLt),
      allChans_getElem]
    rfl
  · rfl

end Sys2Proof.Machine
end

section
/-! Closures and the end of a billet (R30, R32, R34, R42, R104, R118 to R121): what they touch, and the records they leave. -/

namespace Sys2Proof.Machine

open Sys2Proof.Safety

/-! ## What closures touch -/

/-- From `s` to `t` channel `c`'s tracks and episode at most are closed and classified: of the channel its tracks, its band
tracker, its serial and its tallies change, of its counters the discarded one, of the ring writer the record queue and the
loss episode, of the memory path the outgoing writes, of the latched sets the part's; no mark enters a queue but the channel's own. -/
structure Closes (c : Chan) (s t : State) : Prop where
  only : OnlyChan c s t
  chan : t.chan c =
    { s.chan c with
      tracks := (t.chan c).tracks
      band := (t.chan c).band
      record := { (s.chan c).record with serial := (t.chan c).record.serial, tallies := (t.chan c).record.tallies } }
  analysed : (t.chan c).record.tallies.analysed = (s.chan c).record.tallies.analysed
  unseen : (t.chan c).record.tallies.unseen = (s.chan c).record.tallies.unseen
  unrouted : t.unrouted = s.unrouted
  ring : t.ring = { s.ring with queue := t.ring.queue, loss := t.ring.loss }
  list : t.path.list = s.path.list
  port : t.path.port = s.path.port
  nextId : t.path.nextId = s.path.nextId
  lastSide : t.path.lastSide = s.path.lastSide
  words : t.status.words = s.status.words
  counters : t.status.counters =
    s.status.counters.set c
      { s.status.counters.get c with discarded := (t.status.counters.get c).discarded }
  snapshot : t.status.snapshot = s.status.snapshot
  marks : ∀ (k : Strand) (m : Mark), m ∈ (t.strands.get k).queue → m.chan = c ∨ m ∈ (s.strands.get k).queue

theorem Closes.refl (c : Chan) (s : State) : Closes c s s where
  only := .refl c s
  chan := rfl
  analysed := rfl
  unseen := rfl
  unrouted := rfl
  ring := rfl
  list := rfl
  port := rfl
  nextId := rfl
  lastSide := rfl
  words := rfl
  counters := (Bank16.set_get_self _ c).symm
  snapshot := rfl
  marks _ _ hm := .inr hm

theorem Closes.trans {c : Chan} {s t u : State} (h : Closes c s t) (k : Closes c t u) : Closes c s u where
  only := h.only.trans k.only
  chan := by rw [k.chan, h.chan]
  analysed := k.analysed.trans h.analysed
  unseen := k.unseen.trans h.unseen
  unrouted := k.unrouted.trans h.unrouted
  ring := by rw [k.ring, h.ring]
  list := k.list.trans h.list
  port := k.port.trans h.port
  nextId := k.nextId.trans h.nextId
  lastSide := k.lastSide.trans h.lastSide
  words := k.words.trans h.words
  counters := by
    rw [k.counters, h.counters]
    simp only [Bank16.set_set, Bank16.get_set_same]
  snapshot := k.snapshot.trans h.snapshot
  marks j m hm := (k.marks j m hm).elim .inl (h.marks j m)

theorem OffersOnly.closes {s t : State} (c : Chan) (h : OffersOnly s t) (hwords : t.status.words = s.status.words) :
    Closes c s t where
  only := h.onlyChan c
  chan := by rw [h.chan]
  analysed := by rw [h.chan]
  unseen := by rw [h.chan]
  unrouted := h.unrouted
  ring := by rw [h.ring]
  list := h.list
  port := h.port
  nextId := h.nextId
  lastSide := h.lastSide
  words := hwords
  counters := by rw [h.counters, Bank16.set_get_self]
  snapshot := h.snapshot
  marks _ _ hm := .inr (h.strands ▸ hm)

section Steps

variable (c : Chan) (s : State)

theorem latchPart_closes (k : PartCond) : Closes c s (latchPart k s) :=
  (latchPart_offersOnly k s).closes c (latchPart_words k s)

/-- A change of the channel's tracks, band tracker, serial and of the tallies that closures count. -/
theorem modChan_closes {f : Channel → Channel}
    (hf : f (s.chan c) =
      { s.chan c with
        tracks := (f (s.chan c)).tracks
        band := (f (s.chan c)).band
        record := { (s.chan c).record with
          serial := (f (s.chan c)).record.serial, tallies := (f (s.chan c)).record.tallies } })
    (ha : (f (s.chan c)).record.tallies.analysed = (s.chan c).record.tallies.analysed)
    (hu : (f (s.chan c)).record.tallies.unseen = (s.chan c).record.tallies.unseen) : Closes c s (modChan c f s) where
  only := modChan_onlyChan c s f
  chan := by rw [chan_modChan_same]; exact hf
  analysed := by rw [chan_modChan_same]; exact ha
  unseen := by rw [chan_modChan_same]; exact hu
  unrouted := rfl
  ring := rfl
  list := rfl
  port := rfl
  nextId := rfl
  lastSide := rfl
  words := rfl
  counters := (Bank16.set_get_self _ c).symm
  snapshot := rfl
  marks _ _ hm := .inr hm

theorem modPartCounters_closes (f : PartCounters → PartCounters) : Closes c s (modPartCounters f s) where
  only := modPartCounters_onlyChan c s f
  chan := rfl
  analysed := rfl
  unseen := rfl
  unrouted := rfl
  ring := rfl
  list := rfl
  port := rfl
  nextId := rfl
  lastSide := rfl
  words := rfl
  counters := (Bank16.set_get_self _ c).symm
  snapshot := rfl
  marks _ _ hm := .inr hm

theorem modStrand_closes (k : Strand) {f : StrandState → StrandState}
    (hf : ∀ m ∈ (f (s.strands.get k)).queue, m.chan = c ∨ m ∈ (s.strands.get k).queue) : Closes c s (modStrand k f s) where
  only := modStrand_onlyChan c s k f
  chan := rfl
  analysed := rfl
  unseen := rfl
  unrouted := rfl
  ring := rfl
  list := rfl
  port := rfl
  nextId := rfl
  lastSide := rfl
  words := rfl
  counters := (Bank16.set_get_self _ c).symm
  snapshot := rfl
  marks j m hm := by
    rw [modStrand_strands] at hm
    by_cases hj : j = k
    · subst hj
      rw [Bank4.get_set_same] at hm
      exact hf m hm
    · rw [Bank4.get_set_other _ _ hj] at hm
      exact .inr hm

theorem modRing_closes {f : Ring → Ring} (h : f s.ring = { s.ring with queue := (f s.ring).queue, loss := (f s.ring).loss }) :
    Closes c s (modRing f s) where
  only := modRing_onlyChan c s f
  chan := rfl
  analysed := rfl
  unseen := rfl
  unrouted := rfl
  ring := h
  list := rfl
  port := rfl
  nextId := rfl
  lastSide := rfl
  words := rfl
  counters := (Bank16.set_get_self _ c).symm
  snapshot := rfl
  marks _ _ hm := .inr hm

theorem modCounters_closes (n : Nat) : Closes c s (modCounters c (fun k => { k with discarded := n }) s) where
  only := modCounters_onlyChan c s c _
  chan := rfl
  analysed := rfl
  unseen := rfl
  unrouted := rfl
  ring := rfl
  list := rfl
  port := rfl
  nextId := rfl
  lastSide := rfl
  words := rfl
  counters := by
    change s.status.counters.set c _ = _
    rw [show (modCounters c (fun k => { k with discarded := n }) s).status.counters.get c =
      { s.status.counters.get c with discarded := n } from Bank16.get_set_same _ c _]
  snapshot := rfl
  marks _ _ hm := .inr hm

theorem produce_closes (r : Record) : Closes c s (produce r s) := by
  unfold produce
  split
  · exact modRing_closes c s rfl
  · exact ((modPartCounters_closes c s _).trans (latchPart_closes c _ _)).trans (modRing_closes c _ rfl)

theorem requested_closes (set : ParamSet) (e : Profile) (k : Closure) : Closes c s (requested c set e k s) := by
  unfold requested
  split
  · unfold requestMark
    cases markAnswer (s.strands.get (strandOf c)) (closureTrigger set k) with
    | late => exact (modPartCounters_closes c s _).trans (latchPart_closes c _ _)
    | dropped => exact (modPartCounters_closes c s _).trans (latchPart_closes c _ _)
    | scheduled =>
      refine modStrand_closes c s _ fun m hm => ?_
      rcases List.mem_cons.mp ((insertMark_perm _ _ _).mem_iff.mp hm) with rfl | hm
      · exact .inl rfl
      · exact .inr hm
    | merged => exact .refl c s
    | none => exact .refl c s
    | suppressed => exact .refl c s
  · exact .refl c s

theorem belowClass_closes : Closes c s (belowClass c s) :=
  by
  obtain ⟨u, hu⟩ : ∃ u, u = modCounters c (fun k => { k with discarded := sat16 ((s.status.counters.get c).discarded + 1) }) s :=
    ⟨_, rfl⟩
  have hcounted : belowClass c s = modTallies c (fun t => { t with discarded := sat16 (t.discarded + 1) }) u := by
    rw [hu]
    rfl
  have huc : Closes c s u := hu ▸ modCounters_closes c s _
  rw [hcounted, modTallies_eq, modRecord_eq]
  exact huc.trans (modChan_closes c _ rfl rfl rfl)

theorem classify_closes (set : ParamSet) (k : Closure) : Closes c s (classify c set k s) := by
  cases hm : matchingEntry (heldW s) set k with
  | none =>
    rw [classify_unmatched hm]
    exact belowClass_closes c s
  | some e =>
    rw [classify_matched hm]
    exact ((requested_closes c s set e k).trans (produce_closes c _ _)).trans (modChan_closes c _ rfl rfl rfl)

theorem classifyTracks_closes (set : ParamSet) (cause : Cause) (ts : List Track) :
    Closes c s (classifyTracks c set cause ts s) := by
  unfold classifyTracks
  induction ts generalizing s with
  | nil => exact .refl c s
  | cons t ts ih => exact (classify_closes c s set _).trans (ih _)

theorem closeTracks_closes (cause : Cause) : Closes c s (closeTracks c cause s) :=
  (modChan_closes (f := fun ch => { ch with tracks := [] }) c s rfl rfl rfl).trans (classifyTracks_closes c _ _ cause _)

theorem afterCandidate_closes (set : ParamSet) (e : Episode) (cause : Cause) (long : Bool) :
    Closes c s (afterCandidate c set e cause long s) :=
  (modChan_closes (f := fun _ =>
    { s.chan c with
      band := { (s.chan c).band with episode := Episode.none }
      record := { (s.chan c).record with
        tallies := { (s.chan c).record.tallies with
          transverse := min ((s.chan c).record.tallies.transverse + 1) 65535 } } }) c s rfl rfl rfl).trans
    (classify_closes c _ set _)

/-- R77 to R81: a tested episode is accepted as a mark or handed to the classifier. -/
theorem afterTest_cases (set : ParamSet) (e : Episode) (cause : Cause) :
    (∃ centre ring eff, afterTest c set e cause s = setChan c (afterMark centre ring eff (s.chan c)) s) ∨
      afterTest c set e cause s = afterCandidate c set e cause false s := by
  unfold afterTest
  simp only
  split
  · exact .inl ⟨_, _, _, rfl⟩
  · split
    · exact .inl ⟨_, _, _, rfl⟩
    · exact .inr rfl

theorem afterTest_closes (set : ParamSet) (e : Episode) (cause : Cause) : Closes c s (afterTest c set e cause s) := by
  rcases afterTest_cases c s set e cause with ⟨centre, ring, eff, h⟩ | h
  · rw [h]
    exact modChan_closes (f := afterMark centre ring eff) c s rfl rfl rfl
  · rw [h]
    exact afterCandidate_closes c s set e cause false

theorem closeEpisode_closes (set : ParamSet) (cause : Cause) : Closes c s (closeEpisode c set cause s) := by
  by_cases h : (s.chan c).band.episode.state = .absent
  · rw [closeEpisode_absent set cause h]
    exact .refl c s
  · rw [closeEpisode_present set cause h]
    exact afterTest_closes c s set _ cause

theorem closeAll_closes (cause : Cause) : Closes c s (closeAll c cause s) :=
  (closeTracks_closes c s cause).trans (closeEpisode_closes c _ _ cause)

theorem endBillet_closes (cause : Cause) (ending : BilletEnd) : Closes c s (endBillet c cause ending s) :=
  (closeAll_closes c s cause).trans (produce_closes c _ _)

end Steps

/-! ## No track and no episode stays open -/

theorem closeTracks_tracks (c : Chan) (cause : Cause) (s : State) :
    ((closeTracks c cause s).chan c).tracks = [] ∧ ((closeTracks c cause s).chan c).band = (s.chan c).band ∧
      ((closeTracks c cause s).chan c).params = (s.chan c).params := by
  obtain ⟨r, hr⟩ := classifyTracks_chan c (s.chan c).params cause (s.chan c).tracks (setTracks c [] s)
  rw [closeTracks, hr, setTracks, chan_modChan_same]
  exact ⟨rfl, rfl, rfl⟩

theorem afterCandidate_chan (c : Chan) (set : ParamSet) (e : Episode) (cause : Cause) (long : Bool) (s : State) :
    ∃ r, (afterCandidate c set e cause long s).chan c =
      { s.chan c with band := { (s.chan c).band with episode := Episode.none }, record := r } := by
  obtain ⟨r, hr⟩ := classify_chan c set (candidateOf e cause long)
    (setChan c
      { s.chan c with
        band := { (s.chan c).band with episode := Episode.none }
        record := { (s.chan c).record with
          tallies := { (s.chan c).record.tallies with
            transverse := min ((s.chan c).record.tallies.transverse + 1) 65535 } } } s)
  exact ⟨r, by rw [afterCandidate, hr, chan_setChan_same]⟩

theorem afterTest_absent (c : Chan) (set : ParamSet) (e : Episode) (cause : Cause) (s : State) :
    ((afterTest c set e cause s).chan c).band.episode.state = .absent ∧
      ((afterTest c set e cause s).chan c).tracks = (s.chan c).tracks := by
  rcases afterTest_cases c s set e cause with ⟨centre, ring, eff, h⟩ | h
  · rw [h, chan_setChan_same]
    exact ⟨rfl, rfl⟩
  · obtain ⟨r, hr⟩ := afterCandidate_chan c set e cause false s
    rw [h, hr]
    exact ⟨rfl, rfl⟩

theorem closeEpisode_chan (c : Chan) (set : ParamSet) (cause : Cause) (s : State) :
    ((closeEpisode c set cause s).chan c).band.episode.state = .absent ∧
      ((closeEpisode c set cause s).chan c).tracks = (s.chan c).tracks := by
  by_cases h : (s.chan c).band.episode.state = .absent
  · rw [closeEpisode_absent set cause h]
    exact ⟨h, rfl⟩
  · rw [closeEpisode_present set cause h]
    exact afterTest_absent c set _ cause s

theorem closeAll_chan (c : Chan) (cause : Cause) (s : State) :
    ((closeAll c cause s).chan c).tracks = [] ∧ ((closeAll c cause s).chan c).band.episode.state = .absent := by
  obtain ⟨habsent, htracks⟩ := closeEpisode_chan c ((closeTracks c cause s).chan c).params cause (closeTracks c cause s)
  exact ⟨htracks.trans (closeTracks_tracks c cause s).1, habsent⟩

theorem produce_chan (r : Record) (s : State) (c : Chan) : (produce r s).chan c = s.chan c :=
  chan_of_chans (produce_rest r s).1 c

theorem endBillet_chan (c : Chan) (cause : Cause) (ending : BilletEnd) (s : State) :
    (endBillet c cause ending s).chan c = (closeAll c cause s).chan c := produce_chan _ _ c

/-! ## The records of tracks (R119 to R121, R125) -/

theorem isClassed_iff {w : Nat} {p : ParamSet} {cause : Cause} {x : Track} :
    isClassed w p cause x = true ↔ ∃ e, matchingEntry w p (trackClosure cause x) = some e := by
  rw [isClassed, matchingEntry, ← Option.isSome_iff_exists, List.find?_isSome, List.any_eq_true]

theorem raised_succ (d k : Nat) : raised (min (d + 1) 65535) k = raised d (k + 1) := by
  unfold raised
  split
  · next h => simp [h]
  · rw [if_neg (by omega)]
    omega

theorem recordOfTrack_defectGiven {c : Chan} {set : ParamSet} {cause : Cause} {x : Track} {e : Profile} {s : State} :
    RecordOfTrack (heldW s) set cause c (s.chan c).record.billet s.ms x (defectGiven c set e (trackClosure cause x) s) :=
  ⟨rfl, rfl, rfl, rfl, rfl, rfl, rfl, rfl, rfl, rfl, rfl⟩

/-- With room for them all the tracks that are classed leave their records in the queue, and the others are counted. -/
theorem classifyTracks_records (c : Chan) (set : ParamSet) (cause : Cause) (ts : List Track) (s : State)
    (hroom : s.ring.queue.length + ts.length ≤ 64) :
    ∃ ds : List DefectRecord,
      List.Forall₂ (RecordOfTrack (heldW s) set cause c (s.chan c).record.billet s.ms)
        (ts.filter (isClassed (heldW s) set cause)) ds ∧
      ds.map DefectRecord.serial =
        ((List.range ds.length).map fun i => (s.chan c).record.serial + 1 + BitVec.ofNat 32 i) ∧
      (classifyTracks c set cause ts s).chan c =
        { s.chan c with
          record := { (s.chan c).record with
            serial := (s.chan c).record.serial + BitVec.ofNat 32 ds.length
            tallies := { (s.chan c).record.tallies with
              discarded := raised (s.chan c).record.tallies.discarded (ts.length - ds.length) } } } ∧
      ds.length ≤ ts.length ∧
      (classifyTracks c set cause ts s).ring = { s.ring with queue := s.ring.queue ++ ds.map Record.defect } := by
  induction ts generalizing s with
  | nil => exact ⟨[], .nil, rfl, by simp [classifyTracks, raised], le_refl _, by simp [classifyTracks]⟩
  | cons x xs ih =>
    rw [List.length_cons] at hroom
    obtain ⟨u, hu⟩ : ∃ u, u = classify c set (trackClosure cause x) s := ⟨_, rfl⟩
    have hw : heldW u = heldW s := by rw [hu, heldW, heldW, (classify_onlyChan c set _ s).setup]
    have hms : u.ms = s.ms := by rw [hu, (classify_onlyChan c set _ s).ms]
    have hstep : classifyTracks c set cause (x :: xs) s = classifyTracks c set cause xs u := by rw [hu]; rfl
    rw [hstep]
    cases hm : matchingEntry (heldW s) set (trackClosure cause x) with
    | none =>
      have hclassed : isClassed (heldW s) set cause x = false := by
        rw [← Bool.not_eq_true, isClassed_iff, hm]
        simp
      have hbelow : u = belowClass c s := hu.trans (classify_unmatched hm)
      have huc : u.chan c =
          { s.chan c with
            record := { (s.chan c).record with
              tallies := { (s.chan c).record.tallies with
                discarded := min ((s.chan c).record.tallies.discarded + 1) 65535 } } } := by
        rw [hbelow, belowClass, modTallies_chan_same]
        rfl
      have huring : u.ring = s.ring := by rw [hbelow]; rfl
      obtain ⟨ds, hrecords, hserials, hchan, hlen, hring⟩ := ih u (by rw [huring]; omega)
      rw [huc, hw, hms] at hrecords
      rw [huc] at hserials hchan
      rw [huring] at hring
      refine ⟨ds, ?_, hserials, ?_, by rw [List.length_cons]; omega, hring⟩
      · rwa [List.filter_cons_of_neg (by simp [hclassed])]
      · rw [hchan]
        simp only [raised_succ, List.length_cons, Nat.succ_sub hlen]
    | some e =>
      have hclassed : isClassed (heldW s) set cause x = true := isClassed_iff.mpr ⟨e, hm⟩
      obtain ⟨hchans, hring, -⟩ := requested_rest c set e (trackClosure cause x) s
      have humatched := hu.trans (classify_matched hm)
      have huc : u.chan c =
          { s.chan c with record := { (s.chan c).record with serial := (s.chan c).record.serial + 1 } } := by
        rw [humatched, modRecord_chan_same, produce_chan, chan_of_chans hchans]
      have huring : u.ring =
          { s.ring with queue := s.ring.queue ++ [.defect (defectGiven c set e (trackClosure cause x) s)] } := by
        rw [humatched, modRecord_ring, produce_room _ _ (by rw [hring]; omega), modRing_ring, hring]
      obtain ⟨ds, hrecords, hserials, hchan, hlen, hring⟩ :=
        ih u (by rw [huring, List.length_append, List.length_singleton]; omega)
      rw [huc, hw, hms] at hrecords
      rw [huc] at hserials hchan
      rw [huring] at hring
      refine ⟨defectGiven c set e (trackClosure cause x) s :: ds, ?_, ?_, ?_, by simpa using hlen, ?_⟩
      · rw [List.filter_cons_of_pos hclassed]
        exact .cons recordOfTrack_defectGiven hrecords
      · rw [List.map_cons, hserials, List.length_cons, List.range_succ_eq_map, List.map_cons, List.map_map]
        refine congrArg₂ _ (by simp [defectGiven]) (List.map_congr_left fun i _ => ?_)
        simp only [Function.comp_apply, Nat.succ_eq_add_one, BitVec.ofNat_add]
        rw [BitVec.add_comm (BitVec.ofNat 32 i), ← BitVec.add_assoc]
        rfl
      · rw [hchan]
        simp only [List.length_cons, Nat.add_sub_add_right, BitVec.ofNat_add]
        rw [BitVec.add_comm (BitVec.ofNat 32 ds.length), ← BitVec.add_assoc]
        rfl
      · rw [hring]
        simp

/-! ## The end of a billet (R30, R42) -/

/-- R30, R42, R78: with room for its records a billet whose episode, if one is open, is its reference ends as `BilletEnded`
says. -/
theorem endBillet_billetEnded {c : Chan} (cause : Cause) (ending : BilletEnd) {s : State} (h : EndsInTheQueue s c) :
    BilletEnded (s.chan c).params (s.chan c).band.effPitch cause ending c s (endBillet c cause ending s) s.ring := by
  obtain ⟨hreference, hroom⟩ := h
  obtain ⟨v, hv⟩ : ∃ v, v = setTracks c [] s := ⟨_, rfl⟩
  have hvc : v.chan c = { s.chan c with tracks := [] } := by rw [hv, setTracks, chan_modChan_same]
  have hvs : heldW v = heldW s ∧ v.ms = s.ms ∧ v.ring = s.ring := by rw [hv]; exact ⟨rfl, rfl, rfl⟩
  obtain ⟨hw, hms, hvring⟩ := hvs
  obtain ⟨ds, hrecords, hserials, hchan, hlen, hring⟩ :=
    classifyTracks_records c (s.chan c).params cause (s.chan c).tracks v (by rw [hvring]; omega)
  obtain ⟨t, ht⟩ : ∃ t, t = closeTracks c cause s := ⟨_, rfl⟩
  have htracks : classifyTracks c (s.chan c).params cause (s.chan c).tracks v = t := by rw [ht, hv]; rfl
  rw [htracks, hvc] at hchan
  rw [htracks, hvring] at hring
  rw [hw, hms, hvc] at hrecords
  rw [hvc] at hserials
  have hband : (t.chan c).band = (s.chan c).band := by rw [hchan]
  obtain ⟨u, hu⟩ : ∃ u, u = closeAll c cause s := ⟨_, rfl⟩
  have hepisode : u = closeEpisode c (t.chan c).params cause t := by rw [hu, ht]; rfl
  have huring : u.ring = t.ring ∧ (u.chan c).params = (s.chan c).params ∧
      (u.chan c).band.effPitch = (s.chan c).band.effPitch ∧
      (u.chan c).record =
        { (t.chan c).record with
          tallies := { (t.chan c).record.tallies with
            onPitch :=
              if (s.chan c).band.episode.state = .absent then (s.chan c).record.tallies.onPitch
              else min ((s.chan c).record.tallies.onPitch + 1) 65535 } } := by
    by_cases habsent : (s.chan c).band.episode.state = .absent
    · rw [hepisode, closeEpisode_absent _ _ (by rw [hband]; exact habsent), if_pos habsent, hchan]
      exact ⟨rfl, rfl, rfl, rfl⟩
    · have hprev := hreference.resolve_left habsent
      rw [hepisode, closeEpisode_present _ _ (by rw [hband]; exact habsent), if_neg habsent, afterTest]
      simp only [hprev, chan_setChan_same, hchan]
      exact ⟨rfl, rfl, rfl, rfl⟩
  obtain ⟨huring, huparams, hueff, hurecord⟩ := huring
  have hums : u.ms = s.ms := by rw [hu, (closeAll_onlyChan c cause s).ms]
  have hend : endBillet c cause ending s = produce (.billet (billetRecord c ending u)) u := by rw [hu]; rfl
  have hlenq : u.ring.queue.length < 64 := by
    rw [huring, hring]
    simp only [List.length_append, List.length_map]
    omega
  rw [hend]
  have hrec : ((produce (.billet (billetRecord c ending u)) u).chan c).record = (u.chan c).record := by rw [produce_chan]
  refine ⟨ds, hrecords, hserials, ?_, ?_, ?_⟩
  · rw [hrec, hurecord, hchan]
  · rw [hrec, hurecord, hchan]
  · rw [hrec, produce_room _ _ hlenq, modRing_ring, huring, hring, billetRecord]
    simp only [huparams, hueff, hums, hurecord, hchan, sat16]

theorem billetEnded_ring {p : ParamSet} {eff : Nat} {cause : Cause} {ending : BilletEnd} {c : Chan} {s t : State} {r : Ring}
    (h : BilletEnded p eff cause ending c s t r) : t.ring = { r with queue := t.ring.queue } := by
  obtain ⟨ds, -, -, -, -, hring⟩ := h
  rw [hring]

/-- What `BilletEnded` reads of the state before and after. -/
theorem billetEnded_congr {p : ParamSet} {eff : Nat} {cause : Cause} {ending : BilletEnd} {c : Chan} {s s' t t' : State}
    {r r' : Ring} (h : BilletEnded p eff cause ending c s t r) (hw : heldW s' = heldW s) (hms : s'.ms = s.ms)
    (hbillet : (s'.chan c).record.billet = (s.chan c).record.billet)
    (hserial : (s'.chan c).record.serial = (s.chan c).record.serial)
    (htallies : (s'.chan c).record.tallies = (s.chan c).record.tallies)
    (hlast : (s'.chan c).record.lastAnalysed = (s.chan c).record.lastAnalysed)
    (hhead : (s'.chan c).record.headCount = (s.chan c).record.headCount)
    (htracks : (s'.chan c).tracks = (s.chan c).tracks)
    (hepisode : (s'.chan c).band.episode.state = (s.chan c).band.episode.state)
    (hqueue : s'.ring.queue = s.ring.queue)
    (htserial : (t'.chan c).record.serial = (t.chan c).record.serial)
    (httallies : (t'.chan c).record.tallies = (t.chan c).record.tallies)
    (hring : t'.ring = { r' with queue := t.ring.queue }) : BilletEnded p eff cause ending c s' t' r' := by
  obtain ⟨ds, hrecords, hserials, hserialAfter, htalliesAfter, hringAfter⟩ := h
  refine ⟨ds, ?_, ?_, ?_, ?_, ?_⟩
  · rwa [hw, hms, hbillet, htracks]
  · rwa [hserial]
  · rwa [htserial, hserial]
  · rwa [httallies, htallies, htracks, hepisode]
  · rw [hring, hringAfter, hqueue, httallies, htserial, hbillet, hlast, hhead, hms]

end Sys2Proof.Machine
end

section
/-! The abandon timer (R32). -/

namespace Sys2Proof.Machine

open Sys2Proof.Safety

/-- R32: the state as the billet's closures are made: WAITING, no timer. -/
def waitingRecord (c : Chan) (s : State) : State := modRecord c (settleRecord .waiting) s

theorem waitingRecord_chan (c : Chan) (s : State) :
    (waitingRecord c s).chan c = { s.chan c with record := settleRecord .waiting (s.chan c).record } :=
  chan_modChan_same s c _

/-- R32: a billet given up. -/
structure GivenUp (c : Chan) (s t : State) : Prop where
  chan : t.chan c =
    { s.chan c with
      tracks := []
      band := (t.chan c).band
      record := { settleRecord .waiting (s.chan c).record with
        serial := (t.chan c).record.serial, tallies := (t.chan c).record.tallies } }
  episode : (t.chan c).band.episode.state = .absent
  only : OnlyChan c s t
  list : t.path.list = s.path.list
  latched : (t.status.words.get c).latched = (s.status.words.get c).latched ||| 512
  ended : EndsInTheQueue s c →
    BilletEnded (s.chan c).params (s.chan c).band.effPitch .abandoned .abandoned c s t s.ring

theorem abandonBillet_givenUp (c : Chan) (s : State) : GivenUp c s (abandonBillet c s) := by
  obtain ⟨v, hv⟩ : ∃ v, v = waitingRecord c s := ⟨_, rfl⟩
  obtain ⟨u, hu⟩ : ∃ u, u = endBillet c .abandoned .abandoned v := ⟨_, rfl⟩
  have hvc : v.chan c = { s.chan c with record := settleRecord .waiting (s.chan c).record } := by
    rw [hv, waitingRecord_chan]
  have hrun : abandonBillet c s = latchChan c .abandoned u := by rw [hu, hv]; rfl
  have hlatch := latchChan_offersOnly c .abandoned u
  have hcloses : Closes c v u := hu ▸ endBillet_closes c v .abandoned .abandoned
  have huc : (u.chan c).tracks = [] ∧ (u.chan c).band.episode.state = .absent := by
    rw [hu, endBillet_chan]
    exact closeAll_chan c .abandoned v
  obtain ⟨hutracks, huepisode⟩ := huc
  have honly := abandonBillet_onlyChan c s
  rw [hrun] at honly ⊢
  refine ⟨?_, ?_, honly, ?_, ?_, fun hends => ?_⟩
  · rw [hlatch.chan, hcloses.chan, hutracks, hvc]
  · rw [hlatch.chan]
    exact huepisode
  · rw [hlatch.list, hcloses.list, hv]
    rfl
  · rw [latchChan_rest, hcloses.words, hv]
    rfl
  · have hvends : EndsInTheQueue v c := by
      rw [EndsInTheQueue, hvc, hv]
      exact hends
    have hended := endBillet_billetEnded .abandoned .abandoned hvends
    rw [← hu, hvc] at hended
    have hvrecord : (v.chan c).record = settleRecord .waiting (s.chan c).record := by rw [hvc]
    exact billetEnded_congr hended (by rw [hv]; rfl) (by rw [hv]; rfl) (by rw [hvrecord]; rfl) (by rw [hvrecord]; rfl)
      (by rw [hvrecord]; rfl) (by rw [hvrecord]; rfl) (by rw [hvrecord]; rfl) (by rw [hvc]) (by rw [hvc]) (by rw [hv]; rfl)
      (by rw [hlatch.chan]) (by rw [hlatch.chan]) (hlatch.ring.trans ((billetEnded_ring hended).trans (by rw [hv]; rfl)))

theorem serveHead_empty {c : Chan} {n : Nat} {s : State} (h : (s.chan c).capture.queue = []) : serveHead c n s = s := by
  cases n with
  | zero => rfl
  | succ n => rw [serveHead, h]; rfl

/-- R131: a billet without tracks and episode whose BILLET record finds 64 queued. -/
theorem abandonBillet_full {c : Chan} {s : State} (htracks : (s.chan c).tracks = [])
    (hepisode : (s.chan c).band.episode.state = .absent) (hfull : 64 ≤ s.ring.queue.length) :
    (abandonBillet c s).ring = lostRing s.ms s.ring ∧
      ((abandonBillet c s).chan c).record.tallies = (s.chan c).record.tallies ∧
      (abandonBillet c s).status.partCounters =
        { s.status.partCounters with recordsLost := min (s.status.partCounters.recordsLost + 1) 65535 } ∧
      (abandonBillet c s).status.part.latched = s.status.part.latched ||| 4 := by
  obtain ⟨v, hv⟩ : ∃ v, v = waitingRecord c s := ⟨_, rfl⟩
  have hvc : v.chan c = { s.chan c with record := settleRecord .waiting (s.chan c).record } := by
    rw [hv, waitingRecord_chan]
  obtain ⟨t, ht⟩ : ∃ t, t = setTracks c [] v := ⟨_, rfl⟩
  have htc : t.chan c = v.chan c := by
    rw [ht, setTracks, chan_modChan_same, hvc, ← htracks]
  have hclose : closeAll c .abandoned v = t := by
    have hnone : closeTracks c .abandoned v = t := by
      rw [closeTracks, hvc, htracks, ht]
      rfl
    rw [closeAll, hnone]
    exact closeEpisode_absent _ _ (by rw [htc, hvc]; exact hepisode)
  have hblocks : t.ring = s.ring ∧ t.status = s.status ∧ t.ms = s.ms := by
    rw [ht, hv]
    exact ⟨rfl, rfl, rfl⟩
  obtain ⟨hring, hstatus, hms⟩ := hblocks
  obtain ⟨u, hu⟩ : ∃ u, u = produce (.billet (billetRecord c .abandoned t)) t := ⟨_, rfl⟩
  have hrun : abandonBillet c s = latchChan c .abandoned u := by
    rw [hu, ← hclose, hv]
    rfl
  obtain ⟨huring, huchans, -, hupart, hulatched, -, -⟩ :=
    produce_full (r := .billet (billetRecord c .abandoned t)) (s := t) (by rw [hring]; exact hfull)
  rw [← hu] at huring huchans hupart hulatched
  have hlatch := latchChan_offersOnly c .abandoned u
  rw [hrun, hlatch.ring, hlatch.chan, hlatch.partCounters, chan_of_chans huchans, htc, hvc]
  refine ⟨by rw [huring, hms, hring], rfl, by rw [hupart, hstatus], ?_⟩
  rw [← hstatus, ← hulatched]
  exact congrArg CondWord.latched (condWordOf_latchBit_other (o := .chan c) (p := .part) _ u (by simp))

/-- Settles O35: the billet given up, the expiry remembered while an analysis is in flight, or nothing. -/
theorem abandonExpiryGivesUpTheBillet : Obligations.AbandonExpiryGivesUpTheBillet := by
  intro c tm s hstate habandon
  have hexec : exec (.abandonTimerExpiry c) s =
      if timerDue s.ms tm then .next (abandonExpires c s) else .next s := by
    change execAbandonTimerExpiry c s = _
    rw [execAbandonTimerExpiry, hstate, habandon]
  refine ⟨fun hdue hidle hqueue => ?_, fun hdue hflight => ?_, fun hearly => by
    rw [hexec, if_neg fun h => by have := timerDue_iff.mp h; omega]⟩
  · have hgiven := abandonBillet_givenUp c s
    have hexpires : abandonExpires c s = abandonBillet c s := by
      rw [abandonExpires, if_neg (by rw [hidle]; simp)]
      exact serveHead_empty (by rw [hgiven.chan]; exact hqueue)
    refine ⟨abandonBillet c s, by rw [hexec, if_pos (timerDue_iff.mpr hdue), hexpires], ?_, ?_, ?_, ?_, ?_, ?_, ?_, ?_,
      hgiven.episode, ?_, ?_, ?_, hgiven.only.others, hgiven.latched, hgiven.ended, abandonBillet_full⟩
    all_goals rw [hgiven.chan]
    all_goals rfl
  · refine ⟨_, hexec.trans (if_pos (timerDue_iff.mpr hdue)), ?_, fun x hx => ?_, ?_⟩
    all_goals rw [abandonExpires, if_pos hflight]
    · exact chan_modChan_same s c _
    · exact chan_modChan_other s _ hx
    · exact ⟨rfl, rfl⟩

end Sys2Proof.Machine
end

section
/-! Commands refused (R173, R174, R175). -/

namespace Sys2Proof.Machine

open Sys2Proof.Safety

/-! ## The command that the host wrote (R172, R174) -/

theorem stagedMask_stagedCommand {code tag : Byte} {mask : BitVec 16} {m : Store Byte} (hm : wfStore 0 m = true) :
    stagedMask (stagedCommand code tag mask m) = mask := by
  have h3 : readStore 0 (stagedCommand code tag mask m) (commandWordAt + 3) = BitVec.ofNat 8 mask.toNat :=
    readStore_stagedCommand hm (i := 3) (by omega)
  have h4 : readStore 0 (stagedCommand code tag mask m) (commandWordAt + 4) = BitVec.ofNat 8 (mask.toNat / 256) :=
    readStore_stagedCommand hm (i := 4) (by omega)
  have hstaged : staged (stagedCommand code tag mask m) (commandWordAt + 3) 2 =
      leNat [readStore 0 (stagedCommand code tag mask m) (commandWordAt + 3),
        readStore 0 (stagedCommand code tag mask m) (commandWordAt + 4)] := rfl
  have hlt := mask.isLt
  apply BitVec.eq_of_toNat_eq
  rw [stagedMask, hstaged, h3, h4]
  simp only [leNat, BitVec.toNat_ofNat]
  omega

theorem readStore_stagedCommand_other {code tag : Byte} {mask : BitVec 16} {m : Store Byte} {k : Nat}
    (hm : wfStore 0 m = true) (hk : k < commandWordAt ∨ commandWordAt + 8 ≤ k) :
    readStore 0 (stagedCommand code tag mask m) k = readStore 0 m k := by
  rw [stagedCommand, readStore_mergeBeat _ _ _ _ _ _ _ le_rfl hm, if_neg (by omega)]

theorem staged_congr {m m' : Store Byte} {o n : Nat} (h : ∀ k, o ≤ k → k < o + n → readStore 0 m' k = readStore 0 m k) :
    staged m' o n = staged m o n := by
  unfold staged
  induction n generalizing o with
  | zero => rfl
  | succ n ih => rw [fieldAt, fieldAt, h o (le_refl o) (by omega), ih fun k hlo hhi => h k (by omega) (by omega)]

/-- R196: the geometry section lies below the command word. -/
theorem stagedGeometry_stagedCommand {code tag : Byte} {mask : BitVec 16} {m : Store Byte} (hm : wfStore 0 m = true) :
    stagedGeometry (stagedCommand code tag mask m) = stagedGeometry m := by
  have hfield {o n : Nat} (h : o + n ≤ commandWordAt) : staged (stagedCommand code tag mask m) o n = staged m o n :=
    staged_congr fun k _ hk => readStore_stagedCommand_other hm (by omega)
  have hmf : (List.range 8).map (fun i => staged (stagedCommand code tag mask m) (0xB8 + i) 1) =
      (List.range 8).map fun i => staged m (0xB8 + i) 1 :=
    List.map_congr_left fun i hi => hfield (by have := List.mem_range.mp hi; simp only [commandWordAt]; omega)
  have hbase : (fun c : Chan => staged (stagedCommand code tag mask m) (8 * c.val) 8) = fun c => staged m (8 * c.val) 8 :=
    funext fun c => hfield (by simp only [commandWordAt]; omega)
  have hslots : (fun c : Chan => staged (stagedCommand code tag mask m) (0x80 + 2 * c.val) 2) =
      fun c => staged m (0x80 + 2 * c.val) 2 :=
    funext fun c => hfield (by simp only [commandWordAt]; omega)
  simp only [stagedGeometry, hmf, hbase, hslots]
  rw [hfield (by decide), hfield (by decide), hfield (by decide), hfield (by decide), hfield (by decide), hfield (by decide)]

theorem exec_eq_writeCommand {i : Instr} {code tag : Byte} {mask : BitVec 16} (h : commandOf i = some (code, tag, mask))
    (s : State) : exec i s = .next (writeCommand code tag mask s) := by
  cases i <;> simp only [commandOf, reduceCtorEq, Option.some.injEq, Prod.mk.injEq] at h
  all_goals
    obtain ⟨rfl, rfl, rfl⟩ := h
    rfl

/-- R174: a command that is taken runs with what the host wrote. -/
theorem exec_command {i : Instr} {code tag : Byte} {mask : BitVec 16} {s : State}
    (h : commandOf i = some (code, tag, mask)) (ha : Accepting s) (hr : s.setup.command = .ready)
    (hm : wfStore 0 s.setup.staged = true) :
    exec i s = .next (runCommand tag code mask (commandWritten code tag mask s)) := by
  rw [exec_eq_writeCommand h, writeCommand_accepted code tag mask ha hr, startCommand_commandWritten code tag mask hr hm,
    stagedMask_stagedCommand hm]

theorem runCommand_known {code tag : Byte} {mask : BitVec 16} {s : State} (hlo : 1 ≤ code.toNat) (hhi : code.toNat ≤ 8)
    (hg : code.toNat = 1 ∨ s.setup.geometry ≠ none) : runCommand tag code mask s = runKnown tag code mask s := by
  rw [runCommand, if_neg (by omega), if_neg (by tauto)]

/-! ## Refusals -/

theorem sameBlocks_commandWritten (code tag : Byte) (mask : BitVec 16) (s : State) :
    SameBlocks s (commandWritten code tag mask s) := ⟨rfl, rfl, rfl, rfl, rfl, rfl, rfl, rfl⟩

theorem OffersOnly.sameBlocks {s t : State} (h : OffersOnly s t) (hstatus : t.status = s.status) : SameBlocks s t :=
  ⟨h.chans, h.unrouted, h.engine, h.ring, h.strands, by rw [h.setup], by rw [h.setup], hstatus⟩

theorem sameBlocks_trans {s t u : State} (h : SameBlocks s t) (k : SameBlocks t u) : SameBlocks s u := by
  obtain ⟨h1, h2, h3, h4, h5, h6, h7, h8⟩ := h
  obtain ⟨k1, k2, k3, k4, k5, k6, k7, k8⟩ := k
  exact ⟨k1.trans h1, k2.trans h2, k3.trans h3, k4.trans h4, k5.trans h5, k6.trans h6, k7.trans h7, k8.trans h8⟩

theorem commandStatusWord_eq_statusWord {tag code : Byte} {res : CommandResult} {check clamped : Nat} {p q g : Bool}
    (hcheck : check ≤ 255) (hclamped : clamped ≤ 65535) :
    commandStatusWord tag code res p q g check clamped =
      statusWord tag code (BitVec.ofNat 8 (resultCode res))
        (BitVec.ofNat 8 (flagAt 0 p + flagAt 1 q + flagAt 2 g)) (BitVec.ofNat 8 check) clamped := by
  have hresult : field 1 (resultCode res) = [BitVec.ofNat 8 (resultCode res)] := by cases res <;> rfl
  have hflags : field 1 (flagAt 0 p + flagAt 1 q + flagAt 2 g) =
      [BitVec.ofNat 8 (flagAt 0 p + flagAt 1 q + flagAt 2 g)] := by
    cases p <;> cases q <;> cases g <;> rfl
  rw [commandStatusWord, hresult, hflags, field, field, Nat.min_eq_left (by omega : check ≤ 256 ^ 1 - 1),
    Nat.min_eq_left (by omega : clamped ≤ 256 ^ 2 - 1)]
  rfl

/-- R174: a refusal touches no block, and its status word carries the result and the check. -/
theorem refuse_rest {tag code : Byte} (res : CommandResult) {check : Nat} (hcheck : check ≤ 255) (s : State) :
    SameBlocks s (refuse tag code res check s) ∧ (refuse tag code res check s).setup.command = .ready ∧
      WordOffered 0x2000 (statusWord tag code (BitVec.ofNat 8 (resultCode res)) 0 (BitVec.ofNat 8 check) 0)
        (refuse tag code res check s) := by
  have hrest := endCommand_rest (newRunning tag code) res check s
  have hset : SameBlocks s (setCommand .ready s) := ⟨rfl, rfl, rfl, rfl, rfl, rfl, rfl, rfl⟩
  have hword := wordOffered_endCommand (newRunning tag code) res check s
  rw [show commandStatusWord (newRunning tag code).tag (newRunning tag code).code res (newRunning tag code).isPartial
      (decide (1 ≤ (newRunning tag code).clamped)) (newRunning tag code).geometryHeld check (newRunning tag code).clamped =
    statusWord tag code (BitVec.ofNat 8 (resultCode res)) 0 (BitVec.ofNat 8 check) 0 from
      commandStatusWord_eq_statusWord hcheck (Nat.zero_le _)] at hword
  exact ⟨sameBlocks_trans hset (hrest.sameBlocks (endCommand_status _ _ _ _)), congrArg Setup.command hrest.setup, hword⟩

theorem runCommand_refused {code tag : Byte} {mask : BitVec 16} {s t : State} (res : CommandResult) {check : Nat}
    (hcheck : check ≤ 255) (ht : t = refuse tag code res check (commandWritten code tag mask s)) :
    SameBlocks s t ∧ t.setup.command = .ready ∧
      WordOffered 0x2000 (statusWord tag code (BitVec.ofNat 8 (resultCode res)) 0 (BitVec.ofNat 8 check) 0) t := by
  obtain ⟨hsame, hready, hword⟩ := refuse_rest (tag := tag) (code := code) res hcheck (commandWritten code tag mask s)
  rw [ht]
  exact ⟨sameBlocks_trans (sameBlocks_commandWritten code tag mask s) hsame, hready, hword⟩

/-- Settles O44: the three tests in their order. -/
theorem unknownCodesAreRefusedUnknown : Obligations.UnknownCodesAreRefusedUnknown := by
  refine ⟨fun code tag mask s ha hr hm hcode => ?_, fun i code tag mask s hi ha hr hm => ⟨fun hlo hhi hg => ?_,
    fun hlo hhi hg hmask => ?_⟩⟩
  · refine ⟨_, exec_command rfl ha hr hm, ?_⟩
    exact runCommand_refused .refusedUnknown (Nat.zero_le _) (by rw [runCommand, if_pos hcode])
  · refine ⟨_, exec_command hi ha hr hm, ?_⟩
    refine runCommand_refused (mask := mask) .refusedNoGeometry (Nat.zero_le _) ?_
    rw [runCommand, if_neg (by omega), if_pos ⟨by omega, hg⟩]
  · refine ⟨_, exec_command hi ha hr hm, ?_⟩
    refine runCommand_refused (mask := mask) .refusedInvalid (Nat.zero_le _) ?_
    rw [runCommand_known (s := commandWritten code tag mask s) (by omega) (by omega) (.inr hg), runKnown]
    have hcodes : code.toNat = 2 ∨ code.toNat = 3 ∨ code.toNat = 4 ∨ code.toNat = 5 ∨ code.toNat = 6 := by omega
    rcases hcodes with h | h | h | h | h
    all_goals
      rw [h]
      exact if_pos hmask

/-- Settles O37: the failing check's number goes into the refusal. -/
theorem applyIsRefusedByItsFirstFailingCheck : Obligations.ApplyIsRefusedByItsFirstFailingCheck := by
  intro tag mask i s ha hr hm hg hfail
  have hmem : i ∈ [1, 2, 3, 4, 5, 6] := List.mem_of_find?_eq_some hfail
  have hi : i ≤ 255 := by
    simp only [List.mem_cons, List.not_mem_nil, or_false] at hmem
    omega
  refine ⟨_, exec_command rfl ha hr hm, runCommand_refused (mask := mask) .refusedInvalid hi ?_⟩
  have hstaged : stagedGeometry (commandWritten 1 tag mask s).setup.staged = stagedGeometry s.setup.staged :=
    stagedGeometry_stagedCommand hm
  rw [runCommand_known (by decide) (by decide) (.inl rfl)]
  change runApply tag 1 (commandWritten 1 tag mask s) = _
  rw [runApply]
  simp only [commandWritten_geometry, hg, hstaged]
  rw [show (commandWritten 1 tag mask s).setup.strap = s.setup.strap from rfl, hfail]

/-! ## A command that meets another (R173) -/

/-- R173: the command word staged and listed, the end of a command in progress first, then the command starts. -/
theorem writeCommand_settled (code tag : Byte) (mask : BitVec 16) {s : State} (ha : Accepting s) :
    writeCommand code tag mask s = startCommand (settleCommand (commandWritten code tag mask s)) := by
  have haccept : writeCommand code tag mask s =
      acceptWrite s.path.nextId (setupBase s.setup.strap + commandWordAt) [commandBeat code tag mask]
        (modPath (fun p => { p with nextId := p.nextId + 1 }) s) := presentTxn_accepted _ _ ha
  rw [haccept, ← modPath_setup s fun p => { p with nextId := p.nextId + 1 }]
  simp only [acceptWrite, captureWrite_commandWord, stageWrite_commandWord, startsCommand_commandBeat, if_true]
  rfl

/-- Settles O45: the write of the refusal, nothing else. -/
theorem commandsInProgressRefuseOthersBusy : Obligations.CommandsInProgressRefuseOthersBusy := by
  intro i code tag mask r s hi ha hm hr hdone
  obtain ⟨u, hu⟩ : ∃ u, u = commandWritten code tag mask s := ⟨_, rfl⟩
  have huc : u.setup.command = .inProgress r := by rw [hu]; exact hr
  have hudone : commandDone r u = false := by rw [hu]; exact hdone
  have hsettled : settleCommand u = u := by rw [settleCommand, huc]; exact if_neg (by simp [hudone])
  have hstaged : u.setup.staged = stagedCommand code tag mask s.setup.staged := by rw [hu]; rfl
  have hexec : exec i s = .next (refuseBusy tag code u) := by
    rw [exec_eq_writeCommand hi, writeCommand_settled code tag mask ha, ← hu, hsettled, startCommand, huc, hstaged,
      stagedTag_stagedCommand hm, stagedCode_stagedCommand hm]
  have hoffers : OffersOnly u (refuseBusy tag code u) := offerWord_offersOnly _ _ u
  refine ⟨_, hexec, ?_, ?_, ?_⟩
  · refine sameBlocks_trans ?_ (hoffers.sameBlocks rfl)
    rw [hu]
    exact sameBlocks_commandWritten code tag mask s
  · rw [hoffers.setup]
    exact huc
  · have hword := wordOffered_offerWord commandStatusAt
      (commandStatusWord tag code .refusedBusy false false false 0 0) u
    rwa [commandStatusWord_eq_statusWord (by decide) (by decide)] at hword

end Sys2Proof.Machine
end

section
/-! Trailers released with ABORTED (R21) and marks removed (R153), of one channel and of several one after the other. -/

namespace Sys2Proof.Machine

open Sys2Proof.Safety

/-! ## Trailers (R21, R163) -/

/-- R21: a listed transaction after the trailers `hs` are released with ABORTED. -/
def abortTxn (hs : List HeldTrailer) (x : SysTxn) : SysTxn :=
  hs.foldl
    (fun x h => if x.id = h.txn then { x with held := false, body := rewriteBody h.beat (plainWord .aborted) x.body } else x) x

/-- R21: the list after trailers are released. -/
def abortList (hs : List HeldTrailer) (p : Path) : Path := { p with list := p.list.map (abortTxn hs) }

theorem abortTxn_cons (h : HeldTrailer) (hs : List HeldTrailer) (x : SysTxn) :
    abortTxn (h :: hs) x =
      abortTxn hs
        (if x.id = h.txn then { x with held := false, body := rewriteBody h.beat (plainWord .aborted) x.body } else x) := rfl

theorem abortTxn_append (hs ks : List HeldTrailer) (x : SysTxn) : abortTxn (hs ++ ks) x = abortTxn ks (abortTxn hs x) := by
  rw [abortTxn, List.foldl_append]
  rfl

theorem abortTxn_id (hs : List HeldTrailer) (x : SysTxn) : (abortTxn hs x).id = x.id := by
  induction hs generalizing x with
  | nil => rfl
  | cons h hs ih =>
    rw [abortTxn_cons, ih]
    split <;> rfl

theorem abortTxn_other {hs : List HeldTrailer} {x : SysTxn} (h : ∀ k ∈ hs, k.txn ≠ x.id) : abortTxn hs x = x := by
  induction hs generalizing x with
  | nil => rfl
  | cons k hs ih =>
    rw [abortTxn_cons, if_neg fun he => h k (by simp) he.symm]
    exact ih fun j hj => h j (List.mem_cons_of_mem _ hj)

theorem rewriteBody_rewriteBody (i : Nat) (w : Word64) (b : Body) : rewriteBody i w (rewriteBody i w b) = rewriteBody i w b := by
  cases b with
  | write beats => simp [rewriteBody, rewriteBeat]
  | read n => rfl

theorem abortTxn_same {hs : List HeldTrailer} {x : SysTxn} {beat : Nat} (hbeat : ∀ k ∈ hs, k.txn = x.id → k.beat = beat)
    (hex : ∃ k ∈ hs, k.txn = x.id) :
    abortTxn hs x = { x with held := false, body := rewriteBody beat (plainWord .aborted) x.body } := by
  induction hs generalizing x with
  | nil =>
    obtain ⟨k, hk, -⟩ := hex
    exact absurd hk (by simp)
  | cons k hs ih =>
    rw [abortTxn_cons]
    have hbeat' : ∀ j ∈ hs, j.txn = x.id → j.beat = beat := fun j hj => hbeat j (List.mem_cons_of_mem _ hj)
    by_cases hk : x.id = k.txn
    · rw [if_pos hk, hbeat k (by simp) hk.symm]
      by_cases hmore : ∃ j ∈ hs, j.txn = x.id
      · rw [ih (x := { x with held := false, body := rewriteBody beat (plainWord .aborted) x.body }) hbeat' hmore]
        simp only [rewriteBody_rewriteBody]
      · exact abortTxn_other fun j hj he => hmore ⟨j, hj, he⟩
    · rw [if_neg hk]
      obtain ⟨j, hj, hjid⟩ := hex
      rcases List.mem_cons.mp hj with rfl | hj
      · exact absurd hjid.symm hk
      · exact ih hbeat' ⟨j, hj, hjid⟩

theorem abortTxn_notHeld {hs : List HeldTrailer} {x : SysTxn} (h : x.held = false ∨ ∃ k ∈ hs, k.txn = x.id) :
    (abortTxn hs x).held = false := by
  induction hs generalizing x with
  | nil => simpa [abortTxn] using h
  | cons k hs ih =>
    rw [abortTxn_cons]
    split
    · exact ih (.inl rfl)
    · next hk =>
      refine ih (h.imp_right ?_)
      rintro ⟨j, hj, hjid⟩
      rcases List.mem_cons.mp hj with rfl | hj
      · exact absurd hjid.symm hk
      · exact ⟨j, hj, hjid⟩

/-- R21: the list is that of `s` with the trailers of the channels `torn` released, and transactions not held after it. -/
def AbortedBy (torn : Chan → Prop) (s t : State) : Prop :=
  ∃ (hs : List HeldTrailer) (ws : List SysTxn), t.path.list = s.path.list.map (abortTxn hs) ++ ws ∧
    (∀ w ∈ ws, w.held = false) ∧ ∀ h, h ∈ hs ↔ ∃ c, torn c ∧ h ∈ (s.chan c).held

section Aborted

variable {torn : Chan → Prop} {s t : State}

theorem AbortedBy.trailersAborted (h : AbortedBy torn s t) : TrailersAborted torn s t := by
  obtain ⟨hs, ws, hlist, -, hmem⟩ := h
  intro i x hx
  have hi : i < (s.path.list.map (abortTxn hs)).length := by
    rw [List.length_map]
    exact (List.getElem?_eq_some_iff.mp hx).1
  have hget : t.path.list[i]? = some (abortTxn hs x) := by
    rw [hlist, List.getElem?_append_left hi, List.getElem?_map, hx]
    rfl
  refine ⟨fun hnone => ?_, fun c hc k hk hid hbeat => ?_⟩
  · rw [hget, abortTxn_other fun k hk => ?_]
    obtain ⟨c, hc, hkc⟩ := (hmem k).mp hk
    exact hnone c hc k hkc
  · rw [hget, abortTxn_same (beat := k.beat) (fun j hj hjid => ?_) ⟨k, (hmem k).mpr ⟨c, hc, hk⟩, hid⟩]
    · rw [show plainWord .aborted = 12 by decide]
    · obtain ⟨d, hd, hjd⟩ := (hmem j).mp hj
      exact hbeat d hd j hjd hjid

theorem AbortedBy.notHeld (h : AbortedBy torn s t) {c : Chan} (hc : torn c) {k : HeldTrailer} (hk : k ∈ (s.chan c).held)
    {x : SysTxn} (hx : x ∈ t.path.list) (hid : x.id = k.txn) : x.held = false := by
  obtain ⟨hs, ws, hlist, hws, hmem⟩ := h
  rw [hlist] at hx
  rcases List.mem_append.mp hx with hx | hx
  · obtain ⟨y, -, rfl⟩ := List.mem_map.mp hx
    rw [abortTxn_id] at hid
    exact abortTxn_notHeld (.inr ⟨k, (hmem k).mpr ⟨c, hc, hk⟩, hid.symm⟩)
  · exact hws x hx

theorem AbortedBy.congr {torn' : Chan → Prop} (h : AbortedBy torn s t) (htorn : ∀ c, torn' c ↔ torn c) :
    AbortedBy torn' s t := by
  have heq : torn' = torn := funext fun c => propext (htorn c)
  rwa [heq]

theorem abortedBy_nothing {ws : List SysTxn} (hlist : t.path.list = s.path.list ++ ws) (hws : ∀ w ∈ ws, w.held = false)
    (htorn : ∀ c, ¬torn c) : AbortedBy torn s t :=
  ⟨[], ws, by rw [hlist, show s.path.list.map (abortTxn []) = s.path.list from List.map_id _], hws, fun h => by simp [htorn]⟩

theorem AbortedBy.of_list {u : State} (h : AbortedBy torn s u) (hlist : t.path.list = u.path.list) : AbortedBy torn s t := by
  obtain ⟨hs, ws, hulist, hws, hmem⟩ := h
  exact ⟨hs, ws, hlist.trans hulist, hws, hmem⟩

/-- One channel more. -/
theorem AbortedBy.step {c : Chan} {u : State} (h : AbortedBy torn s u) (hheld : (u.chan c).held = (s.chan c).held)
    (hlist : t.path.list = u.path.list.map (abortTxn (u.chan c).held)) : AbortedBy (fun d => torn d ∨ d = c) s t := by
  obtain ⟨hs, ws, hulist, hws, hmem⟩ := h
  refine ⟨hs ++ (s.chan c).held, ws.map (abortTxn (s.chan c).held), ?_, fun w hw => ?_, fun k => ?_⟩
  · rw [hlist, hulist, List.map_append, List.map_map, hheld]
    exact congrArg (· ++ _) (List.map_congr_left fun x _ => (abortTxn_append hs _ x).symm)
  · obtain ⟨x, hx, rfl⟩ := List.mem_map.mp hw
    exact abortTxn_notHeld (.inl (hws x hx))
  · rw [List.mem_append, hmem]
    constructor
    · rintro (⟨d, hd, hk⟩ | hk)
      · exact ⟨d, .inl hd, hk⟩
      · exact ⟨c, .inr rfl, hk⟩
    · rintro ⟨d, hd | rfl, hk⟩
      · exact .inl ⟨d, hd, hk⟩
      · exact .inr hk

end Aborted

theorem modPath_modChan (c : Chan) (f : Channel → Channel) (g : Path → Path) (s : State) :
    modPath g (modChan c f s) = modChan c f (modPath g s) := rfl

/-- R21: the trailers of a channel released with ABORTED, one after the other. -/
theorem foldl_releaseTrailer (c : Chan) (hs : List HeldTrailer) (s : State) :
    hs.foldl (fun t h => releaseTrailer c h (plainWord .aborted) t) s =
      modChan c (fun ch => { ch with held := ch.held.filter fun k => decide (k ∉ hs) }) (modPath (abortList hs) s) := by
  induction hs generalizing s with
  | nil =>
    have hpath : modPath (abortList []) s = s := by
      rw [modPath, abortList, show s.path.list.map (abortTxn []) = s.path.list from List.map_id _]
    rw [hpath, List.foldl_nil]
    simp only [List.not_mem_nil, not_false_eq_true, decide_true, List.filter_true]
    exact (setChan_self c s).symm
  | cons h hs ih =>
    rw [List.foldl_cons, ih, releaseTrailer]
    rw [modPath_modChan, modChan_modChan]
    have hpath : modPath (abortList hs) (modPath (releaseTxn h.txn (rewriteBody h.beat (plainWord .aborted))) s) =
        modPath (abortList (h :: hs)) s := by
      simp only [modPath, abortList, releaseTxn, List.map_map]
      rfl
    rw [hpath]
    congr 1
    funext ch
    simp [List.filter_filter, Bool.and_comm]

/-- R21: a channel's capture state dropped, its trailers released with ABORTED. -/
theorem dropCapture_eq (c : Chan) (s : State) :
    dropCapture c s =
      modChan c (fun ch => { ch with held := [], capture := Capture.empty })
        (modPath (abortList (s.chan c).held) s) := by
  have hnone : ((s.chan c).held.filter fun k => decide (k ∉ (s.chan c).held)) = [] :=
    List.filter_eq_nil_iff.mpr fun k hk => by simp [hk]
  rw [dropCapture, foldl_releaseTrailer, modCapture_eq, modChan_modChan]
  dsimp only [modChan]
  rw [show (modPath (abortList (s.chan c).held) s).chan c = s.chan c from rfl, hnone]

/-! ## Marks (R146, R153) -/

/-- R146: a strand with the queue `q`, a held-back MERGE taking effect as it is empty. -/
def withMarks (q : List Mark) (k : StrandState) : StrandState :=
  { k with
    queue := q
    merge := if q = [] then k.mergeHeld.getD k.merge else k.merge
    mergeHeld := if q = [] then none else k.mergeHeld }

theorem settleMerge_eq (q : List Mark) (k : StrandState) : settleMerge { k with queue := q } = withMarks q k := by
  unfold settleMerge withMarks
  cases hm : k.mergeHeld with
  | none => simp
  | some m => cases q <;> simp

theorem withMarks_withMarks {p q : List Mark} (h : p = [] → q = []) (k : StrandState) :
    withMarks q (withMarks p k) = withMarks q k := by
  unfold withMarks
  by_cases hp : p = []
  · rw [h hp]
    simp [hp]
  · simp [hp]

theorem removeMarks_strands (c : Chan) (s : State) :
    (removeMarks c s).strands =
      s.strands.set (strandOf c)
        (withMarks ((s.strands.get (strandOf c)).queue.filter fun m => decide (m.chan ≠ c)) (s.strands.get (strandOf c))) := by
  rw [← settleMerge_eq]
  rfl

theorem removeMarks_discarded (c : Chan) (s : State) :
    (removeMarks c s).status.partCounters.marksDiscarded =
      min (s.status.partCounters.marksDiscarded +
        ((s.strands.get (strandOf c)).queue.filter fun m => decide (m.chan = c)).length) 65535 := rfl

/-- R153: the marks that a strand keeps as those of the channels `torn` are removed. -/
def marksLeft (torn : Chan → Bool) (k : Strand) (q : List Mark) : List Mark :=
  q.filter fun m => !(torn m.chan && decide (strandOf m.chan = k))

/-- R153: how many marks of the channels `torn` the strands' queues hold. -/
def marksGone (torn : Chan → Bool) (s : State) : Nat :=
  (allStrands.map fun k => ((s.strands.get k).queue.filter fun m => torn m.chan && decide (strandOf m.chan = k)).length).sum

theorem marksRemoved_iff {torn : Chan → Bool} {s t : State} :
    MarksRemoved torn s t ↔
      (∀ k : Strand, t.strands.get k =
        if ∃ c : Chan, torn c = true ∧ strandOf c = k then withMarks (marksLeft torn k (s.strands.get k).queue) (s.strands.get k)
        else s.strands.get k) ∧
      t.status.partCounters.marksDiscarded =
        if ∃ c : Chan, torn c = true then min (s.status.partCounters.marksDiscarded + marksGone torn s) 65535
        else s.status.partCounters.marksDiscarded := by
  constructor
  · rintro ⟨hstrands, hcount⟩
    exact ⟨fun k => hstrands k _ rfl, hcount⟩
  · rintro ⟨hstrands, hcount⟩
    exact ⟨fun k left hleft => by rw [hleft]; exact hstrands k, hcount⟩

theorem marksRemoved_none {torn : Chan → Bool} {s t : State} (hstrands : t.strands = s.strands)
    (hcount : t.status.partCounters.marksDiscarded = s.status.partCounters.marksDiscarded) (h : ∀ c, torn c = false) :
    MarksRemoved torn s t := by
  rw [marksRemoved_iff]
  simp [h, hstrands, hcount]

theorem marksRemoved_congr {torn torn' : Chan → Bool} {s s' t t' : State} (h : MarksRemoved torn s t)
    (htorn : ∀ c, torn' c = torn c) (hs : s'.strands = s.strands)
    (hsc : s'.status.partCounters.marksDiscarded = s.status.partCounters.marksDiscarded) (ht : t'.strands = t.strands)
    (htc : t'.status.partCounters.marksDiscarded = t.status.partCounters.marksDiscarded) : MarksRemoved torn' s' t' := by
  rw [show torn' = torn from funext htorn, MarksRemoved, hs, hsc, ht, htc]
  exact h

theorem marksGone_step {torn : Chan → Bool} {c : Chan} (hc : torn c = false) (s : State) :
    marksGone (fun d => torn d || decide (d = c)) s =
      marksGone torn s + ((s.strands.get (strandOf c)).queue.filter fun m => decide (m.chan = c)).length := by
  have hsplit (k : Strand) :
      ((s.strands.get k).queue.filter fun m => (torn m.chan || decide (m.chan = c)) && decide (strandOf m.chan = k)).length =
        ((s.strands.get k).queue.filter fun m => torn m.chan && decide (strandOf m.chan = k)).length +
          if strandOf c = k then ((s.strands.get k).queue.filter fun m => decide (m.chan = c)).length else 0 := by
    simp only [← List.countP_eq_length_filter]
    induction (s.strands.get k).queue with
    | nil => simp
    | cons m q ih =>
      simp only [List.countP_cons, ih]
      by_cases hm : m.chan = c
      · subst hm
        by_cases hk : strandOf m.chan = k
        · simp [hc, hk]
          omega
        · simp [hc, hk]
      · by_cases hk : strandOf c = k
        · simp [hm, hk]
          omega
        · simp [hm, hk]
  have hsum : (allStrands.map fun k =>
      if strandOf c = k then ((s.strands.get k).queue.filter fun m => decide (m.chan = c)).length else 0).sum =
        ((s.strands.get (strandOf c)).queue.filter fun m => decide (m.chan = c)).length := by
    generalize strandOf c = j
    generalize (fun k => ((s.strands.get k).queue.filter fun m => decide (m.chan = c)).length) = f
    match j with
    | 0 | 1 | 2 | 3 => simp [allStrands]
  have hmap : (allStrands.map fun k => ((s.strands.get k).queue.filter fun m =>
      (torn m.chan || decide (m.chan = c)) && decide (strandOf m.chan = k)).length).sum = _ :=
    (congrArg List.sum (List.map_congr_left fun k _ => hsplit k)).trans (List.sum_map_add)
  rw [marksGone, hmap, hsum]
  rfl

theorem marksLeft_of_none {torn : Chan → Bool} {k : Strand} (h : ¬∃ c : Chan, torn c = true ∧ strandOf c = k)
    (q : List Mark) : marksLeft torn k q = q := by
  refine List.filter_eq_self.mpr fun m _ => ?_
  by_cases ht : torn m.chan = true
  · simpa [ht] using fun hk => h ⟨m.chan, ht, hk⟩
  · simp [ht]

theorem marksLeft_step (torn : Chan → Bool) (c : Chan) (q : List Mark) :
    marksLeft (fun d => torn d || decide (d = c)) (strandOf c) q =
      (marksLeft torn (strandOf c) q).filter fun m => decide (m.chan ≠ c) := by
  rw [marksLeft, marksLeft, List.filter_filter]
  refine List.filter_congr fun m _ => ?_
  by_cases hm : m.chan = c <;> simp [hm]

theorem marksLeft_step_other {torn : Chan → Bool} {c : Chan} {k : Strand} (hk : strandOf c ≠ k) (q : List Mark) :
    marksLeft (fun d => torn d || decide (d = c)) k q = marksLeft torn k q := by
  refine List.filter_congr fun m _ => ?_
  by_cases hm : m.chan = c <;> simp [hm, hk]

/-- R153: the marks of one channel more removed. -/
theorem marksRemoved_step {torn : Chan → Bool} {c : Chan} {s u t : State} (h : MarksRemoved torn s u) (hc : torn c = false)
    (hstrands : t.strands = (removeMarks c u).strands)
    (hcount : t.status.partCounters.marksDiscarded = (removeMarks c u).status.partCounters.marksDiscarded) :
    MarksRemoved (fun d => torn d || decide (d = c)) s t := by
  rw [marksRemoved_iff] at h ⊢
  obtain ⟨hu, hucount⟩ := h
  have hqueue (k : Strand) : (u.strands.get k).queue = marksLeft torn k (s.strands.get k).queue := by
    rw [hu k]
    split
    · rfl
    · next hno => exact (marksLeft_of_none hno _).symm
  refine ⟨fun k => ?_, ?_⟩
  · rw [hstrands, removeMarks_strands]
    by_cases hk : k = strandOf c
    · subst hk
      rw [Bank4.get_set_same, hqueue, if_pos ⟨c, by simp, rfl⟩, marksLeft_step, hu]
      split
      · exact withMarks_withMarks (fun hnil => by rw [hnil]; rfl) _
      · rfl
    · rw [Bank4.get_set_other _ _ hk, hu k, marksLeft_step_other fun h => hk h.symm]
      refine if_congr ⟨fun ⟨d, hd, hdk⟩ => ⟨d, by simp [hd], hdk⟩, fun ⟨d, hd, hdk⟩ => ⟨d, ?_, hdk⟩⟩ rfl rfl
      have hdc : d ≠ c := fun h => hk (h ▸ hdk).symm
      simpa [hdc] using hd
  · have hgone : ((u.strands.get (strandOf c)).queue.filter fun m => decide (m.chan = c)) =
        (s.strands.get (strandOf c)).queue.filter fun m => decide (m.chan = c) := by
      rw [hqueue, marksLeft, List.filter_filter]
      refine List.filter_congr fun m _ => ?_
      by_cases hm : m.chan = c <;> simp [hm, hc]
    refine Eq.trans ?_ (if_pos ⟨c, by simp⟩).symm
    rw [hcount, removeMarks_discarded, hgone, hucount, marksGone_step hc]
    split
    · omega
    · next hno =>
      have hnone : marksGone torn s = 0 := by
        have hall (d : Chan) : torn d = false := by simpa using fun h => hno ⟨d, h⟩
        simp [marksGone, hall]
      rw [hnone, Nat.zero_add]

end Sys2Proof.Machine
end

section
/-! What a channel command makes of its channel (R33 to R36). -/

namespace Sys2Proof.Machine

open Sys2Proof.Safety

/-! ## What is another channel's -/

/-- From `s` to `t` the other channels, their counters and their marks are as they were. -/
structure LeavesOthers (c : Chan) (s t : State) : Prop where
  only : OnlyChan c s t
  counters : ∀ d, d ≠ c → t.status.counters.get d = s.status.counters.get d
  marks : ∀ (k : Strand) (m : Mark), m ∈ (t.strands.get k).queue → m.chan = c ∨ m ∈ (s.strands.get k).queue

theorem LeavesOthers.refl (c : Chan) (s : State) : LeavesOthers c s s := ⟨.refl c s, fun _ _ => rfl, fun _ _ h => .inr h⟩

theorem LeavesOthers.trans {c : Chan} {s t u : State} (h : LeavesOthers c s t) (k : LeavesOthers c t u) : LeavesOthers c s u where
  only := h.only.trans k.only
  counters d hd := (k.counters d hd).trans (h.counters d hd)
  marks j m hm := (k.marks j m hm).elim .inl (h.marks j m)

theorem Closes.leavesOthers {c : Chan} {s t : State} (h : Closes c s t) : LeavesOthers c s t where
  only := h.only
  counters d hd := by rw [h.counters, Bank16.get_set_other _ _ hd]
  marks := h.marks

theorem modChan_leavesOthers (c : Chan) (f : Channel → Channel) (s : State) : LeavesOthers c s (modChan c f s) :=
  ⟨modChan_onlyChan c s f, fun _ _ => rfl, fun _ _ h => .inr h⟩

theorem modCounters_leavesOthers (c : Chan) (f : ChanCounters → ChanCounters) (s : State) :
    LeavesOthers c s (modCounters c f s) :=
  ⟨modCounters_onlyChan c s c f, fun _ hd => Bank16.get_set_other _ _ hd, fun _ _ h => .inr h⟩

theorem modPath_leavesOthers (c : Chan) (f : Path → Path) (s : State) : LeavesOthers c s (modPath f s) :=
  ⟨modPath_onlyChan c s f, fun _ _ => rfl, fun _ _ h => .inr h⟩

theorem dropCapture_leavesOthers (c : Chan) (s : State) : LeavesOthers c s (dropCapture c s) := by
  rw [dropCapture_eq]
  exact (modPath_leavesOthers c _ s).trans (modChan_leavesOthers c _ _)

theorem removeMarks_queue (c : Chan) (s : State) (k : Strand) :
    ((removeMarks c s).strands.get k).queue =
      if k = strandOf c then (s.strands.get k).queue.filter fun m => decide (m.chan ≠ c) else (s.strands.get k).queue := by
  rw [removeMarks_strands]
  split
  · next h => rw [h, Bank4.get_set_same]; rfl
  · next h => rw [Bank4.get_set_other _ _ h]

theorem removeMarks_leavesOthers (c : Chan) (s : State) : LeavesOthers c s (removeMarks c s) where
  only := ⟨fun _ _ => rfl, rfl, rfl, rfl, rfl, rfl, rfl, rfl, rfl⟩
  counters _ _ := rfl
  marks k m hm := by
    rw [removeMarks_queue] at hm
    split at hm
    · exact .inr (List.mem_filter.mp hm).1
    · exact .inr hm

/-- R153: no mark of the channel is left in its strand. -/
theorem removeMarks_none (c : Chan) (s : State) : ∀ m ∈ ((removeMarks c s).strands.get (strandOf c)).queue, m.chan ≠ c := by
  intro m hm
  rw [removeMarks_queue, if_pos rfl] at hm
  simpa using (List.mem_filter.mp hm).2

/-! ## START and START_REPLAY (R33, R85) -/

/-- R33, R85: a channel that START has brought to WAITING. -/
def started (m : Mode) (ch : Channel) : Channel :=
  { ch with
    record := { ch.record with state := .waiting, mode := m }
    band := { ch.band with pitchRing := [], effPitch := effectivePitch ch.params.chan [] } }

theorem startChannel_eq (c : Chan) (m : Mode) (s : State) :
    startChannel c m s = modChan c (started m) (modCounters c (fun _ => ChanCounters.zero) s) := by
  have hcounters (f : Channel → Channel) :
      clearCounters c (modChan c f s) = modChan c f (modCounters c (fun _ => ChanCounters.zero) s) := rfl
  rw [startChannel, modRecord_eq, hcounters, clearPitchRing, recomputePitch, modBand_eq, modChan_modChan, modChan_modChan]
  rfl

/-! ## STOP and ISOLATE (R34, R35) -/

/-- R34: what a teardown into `st` makes of the channel, its closures made in between. -/
structure TearsDown (st : ChanState) (c : Chan) (s t : State) : Prop where
  leaves : LeavesOthers c s t
  chan : t.chan c =
    { s.chan c with
      capture := Capture.empty
      held := []
      tracks := []
      band := (t.chan c).band
      record := { (s.chan c).record with
        state := st, stall := none, abandon := none, pendingCmd := none, abandonDue := false
        serial := (t.chan c).record.serial, tallies := (t.chan c).record.tallies } }
  episode : (t.chan c).band.episode.state = .absent
  list : t.path.list = s.path.list.map (abortTxn (s.chan c).held)
  noMarks : ∀ m ∈ (t.strands.get (strandOf c)).queue, m.chan ≠ c
  ring : t.ring = (teardownRecords c s).ring
  strands : t.strands = (removeMarks c (teardownRecords c s)).strands
  discarded : t.status.partCounters.marksDiscarded =
    (removeMarks c (teardownRecords c s)).status.partCounters.marksDiscarded
  tallies : (t.chan c).record.tallies = ((teardownRecords c s).chan c).record.tallies
  serial : (t.chan c).record.serial = ((teardownRecords c s).chan c).record.serial

theorem teardownRecords_closes (c : Chan) (s : State) : Closes c s (teardownRecords c s) := by
  unfold teardownRecords
  split
  · exact endBillet_closes c s _ _
  · exact closeAll_closes c s _

theorem teardownRecords_chan (c : Chan) (s : State) :
    ((teardownRecords c s).chan c).tracks = [] ∧ ((teardownRecords c s).chan c).band.episode.state = .absent := by
  unfold teardownRecords
  split
  · rw [endBillet_chan]
    exact closeAll_chan c _ s
  · exact closeAll_chan c _ s

theorem teardown_tearsDown (c : Chan) (st : ChanState) (s : State) : TearsDown st c s (teardown c st s) := by
  obtain ⟨u, hu⟩ : ∃ u, u = teardownRecords c s := ⟨_, rfl⟩
  have hcloses : Closes c s u := hu ▸ teardownRecords_closes c s
  obtain ⟨htracks, hepisode⟩ := teardownRecords_chan c s
  rw [← hu] at htracks hepisode
  have hheld : (u.chan c).held = (s.chan c).held := by rw [hcloses.chan]
  obtain ⟨v, hv⟩ : ∃ v, v = dropCapture c u := ⟨_, rfl⟩
  have hvc : v.chan c = { u.chan c with held := [], capture := Capture.empty } := by
    rw [hv, dropCapture_eq, chan_modChan_same]
    rfl
  have hvlist : v.path.list = s.path.list.map (abortTxn (s.chan c).held) := by
    rw [hv, dropCapture_eq, ← hcloses.list, hheld]
    rfl
  have hvblocks : v.ring = u.ring ∧ v.strands = u.strands ∧ v.status = u.status := by
    rw [hv, dropCapture_eq]
    exact ⟨rfl, rfl, rfl⟩
  obtain ⟨hvring, hvstrands, hvstatus⟩ := hvblocks
  have hrun : teardown c st s =
      modRecord c (fun r => { settleRecord st r with pendingCmd := none }) (removeMarks c v) := by
    rw [hv, hu]
    rfl
  have hleaves : LeavesOthers c s (teardown c st s) := by
    rw [hrun]
    refine (hcloses.leavesOthers.trans ?_).trans ((removeMarks_leavesOthers c v).trans (modChan_leavesOthers c _ _))
    rw [hv]
    exact dropCapture_leavesOthers c u
  have hchan : (teardown c st s).chan c =
      { u.chan c with
        held := [], capture := Capture.empty
        record := { settleRecord st (u.chan c).record with pendingCmd := none } } := by
    rw [hrun, modRecord_chan_same, show (removeMarks c v).chan c = v.chan c from rfl, hvc]
  have hstrands : (teardown c st s).strands = (removeMarks c u).strands := by
    rw [hrun, modRecord_strands, removeMarks_strands, removeMarks_strands, hvstrands]
  refine ⟨hleaves, ?_, ?_, ?_, ?_, ?_, ?_, ?_, ?_, ?_⟩
  · rw [hchan, hcloses.chan, htracks]
    rfl
  · rw [hchan]
    exact hepisode
  · rw [hrun]
    exact hvlist
  · rw [hstrands]
    exact removeMarks_none c u
  · rw [hrun, ← hu, ← hvring]
    rfl
  · rw [hstrands, hu]
  · rw [hrun, ← hu, modRecord_status, removeMarks_discarded, removeMarks_discarded, hvstrands, hvstatus]
  · rw [hchan, ← hu]
    rfl
  · rw [hchan, ← hu]
    rfl

theorem TearsDown.billetEnded {st : ChanState} {c : Chan} {s t : State} (h : TearsDown st c s t)
    (hopen : billetOpen s c = true) (hends : EndsInTheQueue s c) :
    BilletEnded (s.chan c).params (s.chan c).band.effPitch .stopped .stopped c s t s.ring := by
  have hrecords : teardownRecords c s = endBillet c .stopped .stopped s := by rw [teardownRecords, if_pos hopen]
  have hended := endBillet_billetEnded .stopped .stopped hends
  rw [← hrecords] at hended
  exact billetEnded_congr hended rfl rfl rfl rfl rfl rfl rfl rfl rfl rfl h.serial h.tallies
    (h.ring.trans (billetEnded_ring hended))

/-! ## RESTART (R36) -/

/-- R36: what RESTART makes of the channel and of the rest. -/
structure Restarts (c : Chan) (s t : State) : Prop where
  leaves : LeavesOthers c s t
  chan : t.chan c = restarted (s.chan c)
  counters : t.status.counters.get c = ChanCounters.zero
  list : t.path.list = s.path.list.map (abortTxn (s.chan c).held)
  ring : t.ring = s.ring
  strands : t.strands = (removeMarks c s).strands
  discarded : t.status.partCounters.marksDiscarded = (removeMarks c s).status.partCounters.marksDiscarded

theorem restartChannel_restarts (c : Chan) (s : State) : Restarts c s (restartChannel c s) := by
  obtain ⟨v, hv⟩ : ∃ v, v = clearPitchRing c (modChan c dropWork s) := ⟨_, rfl⟩
  have hvmod : ∃ f, v = modChan c f s ∧ f (s.chan c) = { restarted (s.chan c) with
      capture := (s.chan c).capture, held := (s.chan c).held, record := (s.chan c).record } := by
    rw [hv, clearPitchRing, recomputePitch, modBand_eq, modChan_modChan, modChan_modChan]
    exact ⟨_, rfl, rfl⟩
  obtain ⟨f, hvf, hf⟩ := hvmod
  obtain ⟨w, hw⟩ : ∃ w, w = dropCapture c v := ⟨_, rfl⟩
  have hrun : restartChannel c s = modRecord c restartRecord (clearCounters c (removeMarks c w)) := by
    rw [hw, hv]
    rfl
  have hvc : v.chan c = f (s.chan c) := by rw [hvf, chan_modChan_same]
  have hheld : (v.chan c).held = (s.chan c).held := by rw [hvc, hf]
  have hwc : w.chan c = { f (s.chan c) with held := [], capture := Capture.empty } := by
    rw [hw, dropCapture_eq, chan_modChan_same, ← hvc]
    rfl
  have hblocks : w.ring = s.ring ∧ w.strands = s.strands ∧ w.status = s.status := by
    rw [hw, dropCapture_eq, hvf]
    exact ⟨rfl, rfl, rfl⟩
  obtain ⟨hring, hstrands, hstatus⟩ := hblocks
  rw [hrun]
  refine ⟨?_, ?_, ?_, ?_, hring, ?_, ?_⟩
  · refine ((?_ : LeavesOthers c s v).trans ?_).trans
      ((removeMarks_leavesOthers c w).trans ((modCounters_leavesOthers c _ _).trans (modChan_leavesOthers c _ _)))
    · rw [hvf]
      exact modChan_leavesOthers c f s
    · rw [hw]
      exact dropCapture_leavesOthers c v
  · rw [modRecord_chan_same, show (clearCounters c (removeMarks c w)).chan c = w.chan c from rfl, hwc, hf]
    rfl
  · exact Bank16.get_set_same _ c _
  · change w.path.list = _
    rw [hw, dropCapture_eq, ← hheld, hvf]
    rfl
  · change (removeMarks c w).strands = _
    rw [removeMarks_strands, removeMarks_strands, hstrands]
  · change (removeMarks c w).status.partCounters.marksDiscarded = _
    rw [removeMarks_discarded, removeMarks_discarded, hstrands, hstatus]

/-! ## A command taken (R33) -/

/-- The channel's pending command forgotten. -/
def forgetPending (c : Chan) (s : State) : State := modRecord c (fun r => { r with pendingCmd := none }) s

theorem forgetPending_of_none {c : Chan} {s : State} (h : (s.chan c).record.pendingCmd = none) : forgetPending c s = s := by
  have hrecord : { (s.chan c).record with pendingCmd := none } = (s.chan c).record := by rw [← h]
  rw [forgetPending, modRecord_eq, modChan, hrecord]
  exact setChan_self c s

theorem takeCommand_eq (c : Chan) (k : ChanCommand) (s : State) :
    takeCommand c k s =
      if suits k (s.chan c).record.state = true then takeEffect c k (forgetPending c s) else markPartial (forgetPending c s) := rfl

theorem takeEffect_leavesOthers (c : Chan) (k : ChanCommand) (s : State) : LeavesOthers c s (takeEffect c k s) := by
  have hstart (m : Mode) : LeavesOthers c s (startChannel c m s) := by
    rw [startChannel_eq]
    exact (modCounters_leavesOthers c _ s).trans (modChan_leavesOthers c _ _)
  have hdown (st : ChanState) : LeavesOthers c s (teardown c st s) := (teardown_tearsDown c st s).leaves
  cases k with
  | start => exact hstart .live
  | startReplay => exact hstart .replay
  | stop =>
    simp only [takeEffect, stopChannel]
    cases (s.chan c).record.state with
    | off => exact .refl c s
    | passOnly => exact modChan_leavesOthers c _ s
    | waiting => exact hdown .off
    | inspecting => exact hdown .off
    | stalled => exact hdown .off
  | isolate =>
    simp only [takeEffect, isolateChannel]
    cases (s.chan c).record.state with
    | passOnly => exact .refl c s
    | off => exact hdown .passOnly
    | waiting => exact hdown .passOnly
    | inspecting => exact hdown .passOnly
    | stalled => exact hdown .passOnly
  | restart => exact (restartChannel_restarts c s).leaves

end Sys2Proof.Machine
end

section
/-! The delivery of a channel command (R33, R180), START, RESTART and a command that waits. -/

namespace Sys2Proof.Machine

open Sys2Proof.Safety

/-! ## One channel after the other -/

/-- What holds before a delivery and is carried from one channel to the next holds after it, of the channels reached. -/
theorem foldl_reached {α : Type} {P : List α → State → Prop} {f : State → α → State} {order : List α} {s : State}
    (hnodup : order.Nodup) (h0 : P [] s)
    (hstep : ∀ done c u, c ∈ order → c ∉ done → P done u → P (done ++ [c]) (f u c)) : P order (order.foldl f s) := by
  have hrest : ∀ (rest done : List α) (u : State), order = done ++ rest → P done u → P order (rest.foldl f u) := by
    intro rest
    induction rest with
    | nil =>
      intro done u hsplit hu
      rw [hsplit, List.append_nil]
      exact hu
    | cons c rest ih =>
      intro done u hsplit hu
      refine ih (done ++ [c]) (f u c) (by rw [hsplit, List.append_assoc]; rfl) (hstep done c u (by rw [hsplit]; simp) ?_ hu)
      intro hc
      rw [hsplit, List.nodup_append] at hnodup
      exact hnodup.2.2 c hc c (by simp) rfl
  exact hrest order [] s rfl h0

theorem inFlight_congr {s t : State} (h : t.engine = s.engine) (c : Chan) : inFlight t c = inFlight s c := by
  rw [inFlight, inFlight, h]

theorem forgetPending_leavesOthers (c : Chan) (s : State) : LeavesOthers c s (forgetPending c s) := by
  rw [forgetPending, modRecord_eq]
  exact modChan_leavesOthers c _ s

/-- R33: the command does not suit the channel that it reaches. -/
def showsPartial (k : ChanCommand) (s : State) (c : Chan) : Bool := !inFlight s c && !suits k (s.chan c).record.state

/-- R33, R180: what a delivery has done whatever its command: from `s` to `u` it has reached the channels `done`. -/
structure Delivered (k : ChanCommand) (s : State) (done : List Chan) (u : State) : Prop where
  untouched : ∀ c, c ∉ done → u.chan c = s.chan c ∧ u.status.counters.get c = s.status.counters.get c
  engine : u.engine = s.engine
  setup : u.setup = { s.setup with command := u.setup.command }
  command : ∀ r, s.setup.command = .inProgress r →
    u.setup.command = .inProgress { r with isPartial := r.isPartial || done.any (showsPartial k s) }

theorem delivered_nothing (k : ChanCommand) (s : State) : Delivered k s [] s :=
  ⟨fun _ _ => ⟨rfl, rfl⟩, rfl, rfl, fun r h => by simp [h]⟩

theorem markPartial_rest (s : State) :
    (markPartial s).chans = s.chans ∧ (markPartial s).status = s.status ∧ (markPartial s).engine = s.engine ∧
      (markPartial s).strands = s.strands ∧ (markPartial s).ring = s.ring ∧ (markPartial s).path = s.path ∧
      (markPartial s).setup = { s.setup with command := (markPartial s).setup.command } ∧
      ∀ r, s.setup.command = .inProgress r → (markPartial s).setup.command = .inProgress { r with isPartial := true } := by
  unfold markPartial
  cases h : s.setup.command with
  | ready => exact ⟨rfl, rfl, rfl, rfl, rfl, rfl, rfl, fun r hr => by cases hr⟩
  | inProgress r =>
    refine ⟨rfl, rfl, rfl, rfl, rfl, rfl, rfl, fun r' hr => ?_⟩
    cases hr
    rfl

theorem Delivered.step {k : ChanCommand} {s u : State} {done : List Chan} {c : Chan} (h : Delivered k s done u)
    (hc : c ∉ done) : Delivered k s (done ++ [c]) (deliverTo k u c) := by
  obtain ⟨huntouched, hengine, hsetup, hcommand⟩ := h
  have huc := (huntouched c hc).1
  have hflight : inFlight u c = inFlight s c := inFlight_congr hengine c
  have hdone (d : Chan) (hd : d ∉ done ++ [c]) : d ≠ c ∧ d ∉ done := by
    simp only [List.mem_append, List.mem_singleton, not_or] at hd
    exact ⟨hd.2, hd.1⟩
  have hquiet {v : State} (hleaves : LeavesOthers c u v) (hshows : showsPartial k s c = false) :
      Delivered k s (done ++ [c]) v := by
    refine ⟨fun d hd => ?_, hleaves.only.engine.trans hengine, ?_, fun r hr => ?_⟩
    · obtain ⟨hdc, hdd⟩ := hdone d hd
      rw [hleaves.only.others d hdc, hleaves.counters d hdc]
      exact huntouched d hdd
    · rw [hleaves.only.setup]
      exact hsetup
    · rw [hleaves.only.setup, hcommand r hr, List.any_append]
      simp [hshows]
  unfold deliverTo
  split
  · next hf => exact hquiet (modChan_leavesOthers c _ u) (by simp [showsPartial, ← hflight, hf])
  · next hf =>
    have hforget := forgetPending_leavesOthers c u
    rw [takeCommand_eq, huc]
    split
    · next hsuits => exact hquiet (hforget.trans (takeEffect_leavesOthers c k _)) (by simp [showsPartial, hsuits])
    · next hsuits =>
      obtain ⟨hchans, hstatus, hmengine, -, -, -, hmsetup, hmcommand⟩ := markPartial_rest (forgetPending c u)
      have hshows : showsPartial k s c = true := by
        simpa [showsPartial, ← hflight] using ⟨by simpa using hf, by simpa using hsuits⟩
      refine ⟨fun d hd => ?_, hmengine.trans (hforget.only.engine.trans hengine), ?_, fun r hr => ?_⟩
      · obtain ⟨hdc, hdd⟩ := hdone d hd
        rw [chan_of_chans hchans, hstatus, hforget.only.others d hdc, hforget.counters d hdc]
        exact huntouched d hdd
      · rw [hmsetup, hforget.only.setup, hsetup]
      · rw [hmcommand _ (by rw [hforget.only.setup]; exact hcommand r hr), List.any_append]
        simp [hshows]

/-- A delivery to a channel leaves the others, their counters and their marks. -/
theorem deliverTo_others (k : ChanCommand) (u : State) (c : Chan) :
    (∀ d, d ≠ c → (deliverTo k u c).chan d = u.chan d ∧
      (deliverTo k u c).status.counters.get d = u.status.counters.get d) ∧
      ∀ (j : Strand) (m : Mark), m ∈ ((deliverTo k u c).strands.get j).queue →
        m.chan = c ∨ m ∈ (u.strands.get j).queue := by
  have hforget := forgetPending_leavesOthers c u
  unfold deliverTo
  split
  · have hleaves : LeavesOthers c u (modRecord c (fun r => { r with pendingCmd := some k }) u) := modChan_leavesOthers c _ u
    exact ⟨fun d hd => ⟨hleaves.only.others d hd, hleaves.counters d hd⟩, hleaves.marks⟩
  · rw [takeCommand_eq]
    split
    · have hleaves := hforget.trans (takeEffect_leavesOthers c k (forgetPending c u))
      exact ⟨fun d hd => ⟨hleaves.only.others d hd, hleaves.counters d hd⟩, hleaves.marks⟩
    · obtain ⟨hchans, hstatus, -, hstrands, -⟩ := markPartial_rest (forgetPending c u)
      rw [hstatus, hstrands]
      exact ⟨fun d hd => ⟨(chan_of_chans hchans d).trans (hforget.only.others d hd), hforget.counters d hd⟩, hforget.marks⟩

/-! ## The run of a channel command (R174, R180) -/

/-- R173, R180: the state as the delivery begins. -/
def deliveryStart (code tag : Byte) (mask : BitVec 16) (s : State) : State :=
  { setCommand (.inProgress (newRunning tag code)) (commandWritten code tag mask s) with freeCount := s.freeCount + 1 }

/-- R180: the state as the command has reached every channel of its mask. -/
def deliveryEnd (k : ChanCommand) (code tag : Byte) (mask : BitVec 16) (s : State) : State :=
  (deliveryOrder s.freeCount mask).foldl (deliverTo k) (deliveryStart code tag mask s)

section Run

variable {k : ChanCommand} {code tag : Byte} {mask : BitVec 16} {s : State}

theorem code_of_chanCommandOf (h : chanCommandOf code = some k) : 2 ≤ code.toNat ∧ code.toNat ≤ 6 := by
  unfold chanCommandOf at h
  split at h
  case h_6 => cases h
  all_goals omega

theorem runKnown_channels (h : chanCommandOf code = some k) (s : State) :
    runKnown tag code mask s = runMasked tag code mask k s := by
  unfold chanCommandOf at h
  unfold runKnown
  split at h
  case h_6 => cases h
  all_goals
    next hcode =>
    rw [hcode]
    cases h
    rfl

theorem exec_channels {i : Instr} (hi : commandOf i = some (code, tag, mask)) (hk : chanCommandOf code = some k)
    (h : CommandTaken s) (hmask : mask ≠ 0) : exec i s = .next (settleCommand (deliveryEnd k code tag mask s)) := by
  obtain ⟨ha, hr, hm, hg⟩ := h
  obtain ⟨hlo, hhi⟩ := code_of_chanCommandOf hk
  rw [exec_command hi ha hr hm,
    runCommand_known (s := commandWritten code tag mask s) (by omega) (by omega) (.inr hg), runKnown_channels hk, runMasked,
    if_neg hmask]
  rfl

theorem deliveryEnd_delivered (k : ChanCommand) (code tag : Byte) (mask : BitVec 16) (s : State) :
    Delivered k (deliveryStart code tag mask s) (deliveryOrder s.freeCount mask) (deliveryEnd k code tag mask s) :=
  foldl_reached (nodup_deliveryOrder _ _) (delivered_nothing k _) fun _ _ _ _ hc h => h.step hc

/-- What holds as the delivery begins and is carried on by each channel holds as it ends. -/
theorem deliveryEnd_reached {P : List Chan → State → Prop} (h0 : P [] (deliveryStart code tag mask s))
    (hstep : ∀ done c u, mask.getLsbD c.val = true → c ∉ done → Delivered k (deliveryStart code tag mask s) done u →
      P done u → P (done ++ [c]) (deliverTo k u c)) :
    P (deliveryOrder s.freeCount mask) (deliveryEnd k code tag mask s) := by
  have hboth := foldl_reached (f := deliverTo k)
    (P := fun done u => Delivered k (deliveryStart code tag mask s) done u ∧ P done u)
    (nodup_deliveryOrder s.freeCount mask) ⟨delivered_nothing k _, h0⟩ fun done c u hmem hc ⟨hd, hp⟩ =>
      ⟨hd.step hc, hstep done c u ((mem_deliveryOrder _ _ _).mp hmem) hc hd hp⟩
  exact hboth.2

/-- The channels as they are delivered to, as seen from the state before the command was written. -/
theorem deliveryEnd_untouched (k : ChanCommand) (code tag : Byte) {mask : BitVec 16} (s : State) {c : Chan}
    (hc : mask.getLsbD c.val = false) :
    (deliveryEnd k code tag mask s).chan c = s.chan c ∧
      (deliveryEnd k code tag mask s).status.counters.get c = s.status.counters.get c :=
  (deliveryEnd_delivered k code tag mask s).untouched c fun hmem => by
    rw [mem_deliveryOrder] at hmem
    rw [hmem] at hc
    cases hc

theorem deliveryEnd_command (k : ChanCommand) (code tag : Byte) (mask : BitVec 16) (s : State) :
    (deliveryEnd k code tag mask s).setup.command =
      .inProgress { newRunning tag code with
        isPartial := (deliveryOrder s.freeCount mask).any (showsPartial k s) } := by
  rw [(deliveryEnd_delivered k code tag mask s).command _ rfl]
  rfl

theorem commandDone_channels (hk : chanCommandOf code = some k) {r : Running} (hr : r.code = code) (t : State) :
    commandDone r t = !anyPending t := by
  unfold chanCommandOf at hk
  unfold commandDone
  rw [hr]
  split at hk
  case h_6 => cases hk
  all_goals
    next hcode =>
    rw [hcode]
    rfl

theorem anyPending_eq_false {t : State} : anyPending t = false ↔ NonePending t := by
  simp only [anyPending, List.any_eq_false, mem_allChans, true_imp_iff, Option.not_isSome_iff_eq_none, NonePending]

/-- R180: a command that no channel keeps pending ends DONE. -/
structure DeliveryDone (k : ChanCommand) (code tag : Byte) (mask : BitVec 16) (s t : State) : Prop where
  rest : OffersOnly (setCommand .ready (deliveryEnd k code tag mask s)) t
  status : t.status = (deliveryEnd k code tag mask s).status
  full : (∀ c : Chan, mask.getLsbD c.val = true → showsPartial k s c = false) →
    WordOffered 0x2000 (statusWord tag code 1 0 0 0) t
  shown : (∃ c : Chan, mask.getLsbD c.val = true ∧ showsPartial k s c = true) →
    WordOffered 0x2000 (statusWord tag code 1 1 0 0) t

theorem exec_channels_done {i : Instr} (hi : commandOf i = some (code, tag, mask)) (hk : chanCommandOf code = some k)
    (h : CommandTaken s) (hmask : mask ≠ 0) (hnone : NonePending (deliveryEnd k code tag mask s)) :
    ∃ t, exec i s = .next t ∧ DeliveryDone k code tag mask s t := by
  obtain ⟨v, hv⟩ : ∃ v, v = deliveryEnd k code tag mask s := ⟨_, rfl⟩
  obtain ⟨r, hr⟩ : ∃ r, r = { newRunning tag code with
    isPartial := (deliveryOrder s.freeCount mask).any (showsPartial k s) } := ⟨_, rfl⟩
  have hcommand : v.setup.command = .inProgress r := by rw [hv, hr, deliveryEnd_command]
  have hdone : commandDone r v = true := by
    rw [commandDone_channels hk (by rw [hr]; rfl), anyPending_eq_false.mpr (hv ▸ hnone)]
    rfl
  have hsettle : settleCommand v = endCommand r .done 0 v := by
    rw [settleCommand, hcommand]
    exact if_pos hdone
  have hword : WordOffered 0x2000 (statusWord tag code 1 (BitVec.ofNat 8 (flagAt 0 r.isPartial)) 0 0)
      (endCommand r .done 0 v) := by
    have hoffered := wordOffered_endCommand r .done 0 v
    rw [commandStatusWord_eq_statusWord (Nat.zero_le _) (by rw [hr]; exact Nat.zero_le _), hr] at hoffered
    rw [hr]
    simpa [newRunning, flagAt, resultCode] using hoffered
  have hany : r.isPartial = (deliveryOrder s.freeCount mask).any (showsPartial k s) := by rw [hr]
  refine ⟨_, exec_channels hi hk h hmask, ?_⟩
  rw [← hv, hsettle]
  refine ⟨hv ▸ endCommand_rest r .done 0 v, hv ▸ endCommand_status r .done 0 v, fun hall => ?_, fun ⟨c, hc, hshows⟩ => ?_⟩
  · have hfalse : r.isPartial = false := by
      rw [hany, List.any_eq_false]
      intro c hc
      rw [hall c ((mem_deliveryOrder _ _ _).mp hc)]
      simp
    rw [hfalse] at hword
    exact hword
  · have htrue : r.isPartial = true := by
      rw [hany, List.any_eq_true]
      exact ⟨c, (mem_deliveryOrder _ _ _).mpr hc, hshows⟩
    rw [htrue] at hword
    exact hword

end Run

/-! ## A command that waits (R33) -/

/-- Settles O41: the channel whose analysis is in flight keeps the command pending, and so it is not done. -/
theorem commandsWaitForTheAnalysisInFlight : Obligations.CommandsWaitForTheAnalysisInFlight := by
  intro i code tag mask k c s hi hk h hmask hflight
  have hnonzero : mask ≠ 0 := by
    rintro rfl
    simp at hmask
  have hdelivered := deliveryEnd_delivered k code tag mask s
  have hpending : (deliveryEnd k code tag mask s).chan c =
      { s.chan c with record := { (s.chan c).record with pendingCmd := some k } } := by
    refine deliveryEnd_reached (k := k)
      (P := fun done u => c ∈ done →
        u.chan c = { s.chan c with record := { (s.chan c).record with pendingCmd := some k } })
      (fun hc => absurd hc (by simp)) (fun done d u _ hd hdel hu hc => ?_) ((mem_deliveryOrder _ _ _).mpr hmask)
    by_cases hdc : d = c
    · subst hdc
      have huflight : inFlight u d = true := (inFlight_congr hdel.engine d).trans hflight
      rw [deliverTo, if_pos huflight, modRecord_chan_same, (hdel.untouched d hd).1]
      rfl
    · rw [((deliverTo_others k u d).1 c (Ne.symm hdc)).1]
      refine hu ?_
      simpa [Ne.symm hdc] using hc
  obtain ⟨r, hr⟩ : ∃ r, (deliveryEnd k code tag mask s).setup.command = .inProgress r ∧ r.tag = tag ∧ r.code = code :=
    ⟨_, deliveryEnd_command k code tag mask s, rfl, rfl⟩
  obtain ⟨hcommand, htag, hcode⟩ := hr
  have hwaits : anyPending (deliveryEnd k code tag mask s) = true := by
    rw [anyPending, List.any_eq_true]
    exact ⟨c, mem_allChans c, by rw [hpending]; rfl⟩
  have hsettle : settleCommand (deliveryEnd k code tag mask s) = deliveryEnd k code tag mask s := by
    rw [settleCommand, hcommand]
    exact if_neg (by rw [commandDone_channels hk hcode, hwaits]; simp)
  refine ⟨_, exec_channels hi hk h hnonzero, ?_⟩
  rw [hsettle]
  exact ⟨hpending, hdelivered.engine, r, hcommand, htag, hcode⟩

/-! ## A command taken at once -/

section AtOnce

variable {k : ChanCommand} {code tag : Byte} {mask : BitVec 16} {s : State}

/-- R180: a delivery to a channel that takes the command at once. -/
theorem deliverTo_atOnce (h : TakenAtOnce mask s) {done : List Chan} {c : Chan} {u : State} (hmask : mask.getLsbD c.val = true)
    (hc : c ∉ done) (hdel : Delivered k (deliveryStart code tag mask s) done u) :
    deliverTo k u c = if suits k (s.chan c).record.state = true then takeEffect c k u else markPartial u := by
  obtain ⟨-, -, hnone, hidle⟩ := h
  have huc : u.chan c = s.chan c := (hdel.untouched c hc).1
  have hflight : inFlight u c = false := (inFlight_congr hdel.engine c).trans (hidle c hmask)
  rw [deliverTo, if_neg (by simp [hflight]), takeCommand_eq, forgetPending_of_none (by rw [huc]; exact hnone c), huc]

/-- What each channel of the mask becomes, as it is delivered to, it is as the delivery ends. -/
theorem deliveryEnd_chan {R : Chan → Channel → ChanCounters → Prop}
    (hreached : ∀ done c u, mask.getLsbD c.val = true → c ∉ done → Delivered k (deliveryStart code tag mask s) done u →
      R c ((deliverTo k u c).chan c) ((deliverTo k u c).status.counters.get c)) {c : Chan} (hc : mask.getLsbD c.val = true) :
    R c ((deliveryEnd k code tag mask s).chan c) ((deliveryEnd k code tag mask s).status.counters.get c) := by
  refine deliveryEnd_reached (k := k) (P := fun done u => ∀ c ∈ done, R c (u.chan c) (u.status.counters.get c))
    (fun c hc => absurd hc (by simp)) (fun done d u hd hdone hdel hu c hc => ?_) c ((mem_deliveryOrder _ _ _).mpr hc)
  by_cases hdc : c = d
  · subst hdc
    exact hreached done c u hd hdone hdel
  · obtain ⟨hchan, hcounters⟩ := (deliverTo_others k u d).1 c hdc
    rw [hchan, hcounters]
    exact hu c (by simpa [hdc] using hc)

theorem showsPartial_atOnce (h : TakenAtOnce mask s) {c : Chan} (hc : mask.getLsbD c.val = true) :
    showsPartial k s c = !suits k (s.chan c).record.state := by
  obtain ⟨-, -, -, hidle⟩ := h
  rw [showsPartial, hidle c hc]
  rfl

/-- R21: the channels `torn` of the mask release their trailers with ABORTED. -/
theorem deliveryEnd_aborted (torn : Chan → Bool)
    (hstep : ∀ done c u, mask.getLsbD c.val = true → c ∉ done → Delivered k (deliveryStart code tag mask s) done u →
      (deliverTo k u c).path.list = if torn c = true then u.path.list.map (abortTxn (u.chan c).held) else u.path.list) :
    AbortedBy (fun c => mask.getLsbD c.val = true ∧ torn c = true) s (deliveryEnd k code tag mask s) := by
  have hall := deliveryEnd_reached (k := k) (code := code) (tag := tag) (mask := mask) (s := s)
    (P := fun done u => AbortedBy (fun c => c ∈ done ∧ torn c = true) s u) ?_ fun done c u hc hdone hdel hu => ?_
  · exact hall.congr fun c => by rw [mem_deliveryOrder]
  · refine abortedBy_nothing (ws := [_]) rfl (fun w hw => ?_) (by simp)
    rw [List.mem_singleton.mp hw]
  · have hheld : (u.chan c).held = (s.chan c).held := congrArg Channel.held (hdel.untouched c hdone).1
    have hlist := hstep done c u hc hdone hdel
    split at hlist
    · next htorn =>
      refine (hu.step hheld hlist).congr fun d => ?_
      rw [List.mem_append, List.mem_singleton]
      constructor
      · rintro ⟨hd | rfl, hdt⟩
        · exact .inl ⟨hd, hdt⟩
        · exact .inr rfl
      · rintro (⟨hd, hdt⟩ | rfl)
        · exact ⟨.inl hd, hdt⟩
        · exact ⟨.inr rfl, htorn⟩
    · next htorn =>
      refine (hu.of_list hlist).congr fun d => ?_
      rw [List.mem_append, List.mem_singleton]
      refine ⟨?_, fun ⟨hd, hdt⟩ => ⟨.inl hd, hdt⟩⟩
      rintro ⟨hd | rfl, hdt⟩
      · exact ⟨hd, hdt⟩
      · exact absurd hdt htorn

/-- R153: the marks of the channels `torn` of the mask are removed. -/
theorem deliveryEnd_marksRemoved (torn : Chan → Bool)
    (hstep : ∀ done c u, mask.getLsbD c.val = true → c ∉ done → Delivered k (deliveryStart code tag mask s) done u →
      (deliverTo k u c).strands = (if torn c = true then removeMarks c u else u).strands ∧
        (deliverTo k u c).status.partCounters.marksDiscarded =
          (if torn c = true then removeMarks c u else u).status.partCounters.marksDiscarded) :
    MarksRemoved (fun c => mask.getLsbD c.val && torn c) s (deliveryEnd k code tag mask s) := by
  have hall := deliveryEnd_reached (k := k) (code := code) (tag := tag) (mask := mask) (s := s)
    (P := fun done u => MarksRemoved (fun c => decide (c ∈ done) && torn c) s u) ?_ fun done c u hc hdone hdel hu => ?_
  · refine marksRemoved_congr hall (fun c => ?_) rfl rfl rfl rfl
    rw [Bool.eq_iff_iff, Bool.and_eq_true, Bool.and_eq_true, decide_eq_true_eq, mem_deliveryOrder]
  · exact marksRemoved_none rfl rfl (by simp)
  · obtain ⟨hstrands, hdiscarded⟩ := hstep done c u hc hdone hdel
    by_cases htorn : torn c = true
    · rw [if_pos htorn] at hstrands hdiscarded
      refine marksRemoved_congr (marksRemoved_step hu (by simp [hdone]) hstrands hdiscarded) (fun d => ?_) rfl rfl rfl rfl
      by_cases hd : d = c
      · subst hd
        simp [htorn]
      · simp [hd]
    · rw [if_neg htorn] at hstrands hdiscarded
      refine marksRemoved_congr hu (fun d => ?_) rfl rfl hstrands hdiscarded
      by_cases hd : d = c
      · subst hd
        simp [htorn]
      · simp [hd]

/-- R153: no mark of a channel enters its strand again once it is delivered to. -/
theorem deliveryEnd_noMarks {torn : Chan → Bool}
    (hstep : ∀ done c u, mask.getLsbD c.val = true → c ∉ done → Delivered k (deliveryStart code tag mask s) done u →
      torn c = true → ∀ m ∈ ((deliverTo k u c).strands.get (strandOf c)).queue, m.chan ≠ c) {c : Chan}
    (hc : mask.getLsbD c.val = true) (htorn : torn c = true) :
    ∀ m ∈ ((deliveryEnd k code tag mask s).strands.get (strandOf c)).queue, m.chan ≠ c := by
  refine deliveryEnd_reached (k := k) (P := fun done u =>
      ∀ c ∈ done, torn c = true → ∀ m ∈ (u.strands.get (strandOf c)).queue, m.chan ≠ c)
    (fun c hc => absurd hc (by simp)) (fun done d u hd hdone hdel hu c hc htorn m hm => ?_) c
    ((mem_deliveryOrder _ _ _).mpr hc) htorn
  by_cases hdc : c = d
  · subst hdc
    exact hstep done c u hd hdone hdel htorn m hm
  · rcases (deliverTo_others k u d).2 (strandOf c) m hm with hmd | hm
    · rw [hmd]
      exact Ne.symm hdc
    · exact hu c (by simpa [hdc] using hc) htorn m hm

end AtOnce

/-! ## START and START_REPLAY -/

/-- R33: the two commands that bring a channel to WAITING, by mode. -/
theorem startChannels (mode : Mode) (k : ChanCommand) {i : Instr} {code tag : Byte} {mask : BitVec 16} {s : State}
    (hi : commandOf i = some (code, tag, mask)) (hk : chanCommandOf code = some k)
    (hsuits : ∀ st, suits k st = decide (st = .off)) (heffect : ∀ c u, takeEffect c k u = startChannel c mode u)
    (h : TakenAtOnce mask s) :
    ∃ t, exec i s = .next t ∧
      (∀ c : Chan,
        if mask.getLsbD c.val = true ∧ (s.chan c).record.state = .off then
          t.chan c = started mode (s.chan c) ∧ t.status.counters.get c = ChanCounters.zero
        else t.chan c = s.chan c ∧ t.status.counters.get c = s.status.counters.get c) ∧
      t.ring = s.ring ∧ t.strands = s.strands ∧ t.engine = s.engine ∧ t.setup.command = .ready ∧
      ((∀ c : Chan, mask.getLsbD c.val = true → (s.chan c).record.state = .off) →
        WordOffered 0x2000 (statusWord tag code 1 0 0 0) t) ∧
      ((∃ c : Chan, mask.getLsbD c.val = true ∧ (s.chan c).record.state ≠ .off) →
        WordOffered 0x2000 (statusWord tag code 1 1 0 0) t) := by
  have hchans (c : Chan) :
      if mask.getLsbD c.val = true ∧ (s.chan c).record.state = .off then
        (deliveryEnd k code tag mask s).chan c = started mode (s.chan c) ∧
          (deliveryEnd k code tag mask s).status.counters.get c = ChanCounters.zero
      else (deliveryEnd k code tag mask s).chan c = s.chan c ∧
        (deliveryEnd k code tag mask s).status.counters.get c = s.status.counters.get c := by
    by_cases hc : mask.getLsbD c.val = true
    · refine deliveryEnd_chan (k := k) (code := code) (tag := tag) (s := s)
        (R := fun c ch n =>
          if mask.getLsbD c.val = true ∧ (s.chan c).record.state = .off then
            ch = started mode (s.chan c) ∧ n = ChanCounters.zero
          else ch = s.chan c ∧ n = s.status.counters.get c)
        (fun done c u hc hdone hdel => ?_) hc
      have huc : u.chan c = s.chan c ∧ u.status.counters.get c = s.status.counters.get c := hdel.untouched c hdone
      rw [deliverTo_atOnce h hc hdone hdel, hsuits]
      by_cases hoff : (s.chan c).record.state = .off
      · rw [if_pos ⟨hc, hoff⟩, if_pos (by simp [hoff]), heffect, startChannel_eq, chan_modChan_same]
        exact ⟨congrArg (started mode) huc.1, Bank16.get_set_same _ c _⟩
      · obtain ⟨hmchans, hmstatus, -⟩ := markPartial_rest u
        rw [if_neg fun hboth => hoff hboth.2, if_neg (by simp [hoff]), chan_of_chans hmchans, hmstatus]
        exact huc
    · rw [if_neg fun hboth => hc hboth.1]
      exact deliveryEnd_untouched k code tag s (by simpa using hc)
  have hblocks : (deliveryEnd k code tag mask s).ring = s.ring ∧ (deliveryEnd k code tag mask s).strands = s.strands := by
    refine deliveryEnd_reached (k := k) (P := fun _ u => u.ring = s.ring ∧ u.strands = s.strands) ⟨rfl, rfl⟩
      fun done c u hc hdone hdel hu => ?_
    rw [deliverTo_atOnce h hc hdone hdel]
    split
    · rw [heffect, startChannel_eq]
      exact hu
    · obtain ⟨-, -, -, hmstrands, hmring, -⟩ := markPartial_rest u
      rw [hmstrands, hmring]
      exact hu
  have hnone : NonePending (deliveryEnd k code tag mask s) := by
    obtain ⟨-, -, hnone, -⟩ := h
    intro c
    have hc := hchans c
    split at hc
    all_goals
      rw [hc.1]
      exact hnone c
  have hshows (c : Chan) (hc : mask.getLsbD c.val = true) :
      showsPartial k s c = true ↔ (s.chan c).record.state ≠ .off := by
    rw [showsPartial_atOnce h hc, hsuits]
    simp
  obtain ⟨htaken, hmask, -, -⟩ := h
  obtain ⟨t, hexec, hdone⟩ := exec_channels_done hi hk htaken hmask hnone
  refine ⟨t, hexec, fun c => ?_, hdone.rest.ring.trans hblocks.1, hdone.rest.strands.trans hblocks.2,
    hdone.rest.engine.trans (deliveryEnd_delivered k code tag mask s).engine, congrArg Setup.command hdone.rest.setup,
    fun hall => hdone.full fun c hc => ?_, fun ⟨c, hc, hstate⟩ => hdone.shown ⟨c, hc, (hshows c hc).mpr hstate⟩⟩
  · rw [hdone.rest.chan, hdone.status]
    exact hchans c
  · rw [← Bool.not_eq_true, hshows c hc, hall c hc]
    simp

/-- Settles O38: the two commands differ in the mode alone. -/
theorem startBringsOffChannelsToWaiting : Obligations.StartBringsOffChannelsToWaiting := by
  rintro i code mode tag mask s (⟨rfl, rfl, rfl⟩ | ⟨rfl, rfl, rfl⟩) h
  · exact startChannels .live .start rfl rfl (fun _ => rfl) (fun _ _ => rfl) h
  · exact startChannels .replay .startReplay rfl rfl (fun _ => rfl) (fun _ _ => rfl) h

/-! ## RESTART -/

/-- Settles O40: each channel of the mask that is not OFF restarts. -/
theorem restartReturnsTheChannelToWaiting : Obligations.RestartReturnsTheChannelToWaiting := by
  intro tag mask s h
  have hstep {done : List Chan} {c : Chan} {u : State} (hc : mask.getLsbD c.val = true) (hdone : c ∉ done)
      (hdel : Delivered .restart (deliveryStart 6 tag mask s) done u) :
      deliverTo .restart u c =
        if (s.chan c).record.state ≠ .off then restartChannel c u else markPartial u := by
    rw [deliverTo_atOnce h hc hdone hdel]
    simp only [suits, decide_eq_true_eq]
    rfl
  obtain ⟨v, hv⟩ : ∃ v, v = deliveryEnd .restart 6 tag mask s := ⟨_, rfl⟩
  have hchans (c : Chan) :
      if mask.getLsbD c.val = true ∧ (s.chan c).record.state ≠ .off then
        v.chan c = restarted (s.chan c) ∧ v.status.counters.get c = ChanCounters.zero
      else v.chan c = s.chan c ∧ v.status.counters.get c = s.status.counters.get c := by
    rw [hv]
    by_cases hc : mask.getLsbD c.val = true
    · refine deliveryEnd_chan (k := .restart) (code := 6) (tag := tag) (s := s)
        (R := fun c ch n =>
          if mask.getLsbD c.val = true ∧ (s.chan c).record.state ≠ .off then
            ch = restarted (s.chan c) ∧ n = ChanCounters.zero
          else ch = s.chan c ∧ n = s.status.counters.get c)
        (fun done c u hc hdone hdel => ?_) hc
      have huc : u.chan c = s.chan c ∧ u.status.counters.get c = s.status.counters.get c := hdel.untouched c hdone
      rw [hstep hc hdone hdel]
      by_cases hoff : (s.chan c).record.state ≠ .off
      · have hrestarts := restartChannel_restarts c u
        rw [if_pos ⟨hc, hoff⟩, if_pos hoff, hrestarts.chan, huc.1]
        exact ⟨rfl, hrestarts.counters⟩
      · obtain ⟨hmchans, hmstatus, -⟩ := markPartial_rest u
        rw [if_neg fun hboth => hoff hboth.2, if_neg hoff, chan_of_chans hmchans, hmstatus]
        exact huc
    · rw [if_neg fun hboth => hc hboth.1]
      exact deliveryEnd_untouched .restart 6 tag s (by simpa using hc)
  have hring : v.ring = s.ring := by
    rw [hv]
    refine deliveryEnd_reached (k := .restart) (P := fun _ u => u.ring = s.ring) rfl fun done c u hc hdone hdel hu => ?_
    rw [hstep hc hdone hdel]
    split
    · exact (restartChannel_restarts c u).ring.trans hu
    · obtain ⟨-, -, -, -, hmring, -⟩ := markPartial_rest u
      exact hmring.trans hu
  have haborted : AbortedBy (fun c => mask.getLsbD c.val = true ∧ (s.chan c).record.state ≠ .off) s v := by
    rw [hv]
    refine (deliveryEnd_aborted (k := .restart) (code := 6) (tag := tag) (fun c => decide ((s.chan c).record.state ≠ .off))
      fun done c u hc hdone hdel => ?_).congr fun c => by rw [decide_eq_true_eq]
    rw [hstep hc hdone hdel]
    by_cases hoff : (s.chan c).record.state ≠ .off
    · rw [if_pos hoff, if_pos (by simpa using hoff)]
      exact (restartChannel_restarts c u).list
    · obtain ⟨-, -, -, -, -, hmpath, -⟩ := markPartial_rest u
      rw [if_neg hoff, if_neg (by simpa using hoff), hmpath]
  have hremoved : MarksRemoved (fun c => mask.getLsbD c.val && decide ((s.chan c).record.state ≠ .off)) s v := by
    rw [hv]
    refine deliveryEnd_marksRemoved (k := .restart) (code := 6) (tag := tag) (fun c => decide ((s.chan c).record.state ≠ .off))
      fun done c u hc hdone hdel => ?_
    rw [hstep hc hdone hdel]
    by_cases hoff : (s.chan c).record.state ≠ .off
    · rw [if_pos hoff, if_pos (by simpa using hoff)]
      exact ⟨(restartChannel_restarts c u).strands, (restartChannel_restarts c u).discarded⟩
    · obtain ⟨-, hmstatus, -, hmstrands, -⟩ := markPartial_rest u
      rw [if_neg hoff, if_neg (by simpa using hoff), hmstrands, hmstatus]
      exact ⟨rfl, rfl⟩
  have hmarks (c : Chan) (hc : mask.getLsbD c.val = true) (hoff : (s.chan c).record.state ≠ .off) :
      ∀ m ∈ (v.strands.get (strandOf c)).queue, m.chan ≠ c := by
    rw [hv]
    refine deliveryEnd_noMarks (k := .restart) (torn := fun c => decide ((s.chan c).record.state ≠ .off))
      (fun done c u hc hdone hdel hoff => ?_) hc (by simpa using hoff)
    rw [hstep hc hdone hdel, if_pos (by simpa using hoff), (restartChannel_restarts c u).strands]
    exact removeMarks_none c u
  have hnone : NonePending v := by
    obtain ⟨-, -, hnone, -⟩ := h
    intro c
    have hc := hchans c
    split at hc
    · rw [hc.1]
      rfl
    · rw [hc.1]
      exact hnone c
  have hshows (c : Chan) (hc : mask.getLsbD c.val = true) :
      showsPartial .restart s c = true ↔ (s.chan c).record.state = .off := by
    rw [showsPartial_atOnce h hc]
    simp [suits]
  have hengine : v.engine = s.engine := by rw [hv]; exact (deliveryEnd_delivered .restart 6 tag mask s).engine
  obtain ⟨htaken, hmask, -, -⟩ := h
  obtain ⟨t, hexec, hdone⟩ := exec_channels_done (k := .restart) (i := .restart tag mask) rfl rfl htaken hmask (hv ▸ hnone)
  have hrest := hdone.rest
  have hstatus := hdone.status
  rw [← hv] at hrest hstatus
  have htaborted := haborted.of_list hrest.list
  refine ⟨t, hexec, congrArg Setup.command hrest.setup, hrest.ring.trans hring, hrest.engine.trans hengine, fun c => ?_,
    fun c hc hoff k hk x hx hid => htaborted.notHeld ⟨hc, hoff⟩ hk hx hid, htaborted.trailersAborted,
    marksRemoved_congr hremoved (fun _ => rfl) rfl rfl hrest.strands (by rw [hstatus]), fun hall => hdone.full fun c hc => ?_,
    fun ⟨c, hc, hstate⟩ => hdone.shown ⟨c, hc, (hshows c hc).mpr hstate⟩⟩
  · have hc := hchans c
    rw [hrest.chan, hrest.strands, hstatus]
    split at hc
    · next hboth =>
      rw [if_pos hboth]
      exact ⟨hc.1, hc.2, hmarks c hboth.1 hboth.2⟩
    · next hboth =>
      rw [if_neg hboth]
      exact hc
  · rw [← Bool.not_eq_true, hshows c hc]
    exact hall c hc

end Sys2Proof.Machine
end

section
/-! STOP and ISOLATE (R34, R35, R42, R153). -/

namespace Sys2Proof.Machine

open Sys2Proof.Safety

/-! ## What closures make of the marks -/

/-- What a closure's mark request reads and leaves agrees. -/
structure SameMarks (c : Chan) (s t : State) : Prop where
  width : heldW t = heldW s
  ms : t.ms = s.ms
  strands : t.strands = s.strands
  discarded : t.status.partCounters.marksDiscarded = s.status.partCounters.marksDiscarded
  mode : (t.chan c).record.mode = (s.chan c).record.mode

theorem produce_discarded (r : Record) (s : State) :
    (produce r s).status.partCounters.marksDiscarded = s.status.partCounters.marksDiscarded := by
  by_cases h : s.ring.queue.length < 64
  · rw [produce_room r s h]
    rfl
  · obtain ⟨-, -, -, hpart, -⟩ := produce_full (r := r) (s := s) (by omega)
    rw [hpart]

theorem requestMark_sameMarks {c : Chan} {s t : State} (trigger : Word32) (h : SameMarks c s t) :
    (requestMark c trigger t).strands = (requestMark c trigger s).strands ∧
      (requestMark c trigger t).status.partCounters.marksDiscarded =
        (requestMark c trigger s).status.partCounters.marksDiscarded := by
  have hlatch (k : PartCond) (f : PartCounters → PartCounters) (u : State) :
      (latchPart k (modPartCounters f u)).strands = u.strands ∧
        (latchPart k (modPartCounters f u)).status.partCounters = f u.status.partCounters := by
    have hoffers := latchPart_offersOnly k (modPartCounters f u)
    exact ⟨hoffers.strands, hoffers.partCounters⟩
  unfold requestMark
  rw [h.strands]
  cases markAnswer (s.strands.get (strandOf c)) trigger with
  | late =>
    obtain ⟨hs, hsc⟩ := hlatch .markLate (fun k => { k with marksLate := sat16 (k.marksLate + 1) }) s
    obtain ⟨ht, htc⟩ := hlatch .markLate (fun k => { k with marksLate := sat16 (k.marksLate + 1) }) t
    exact ⟨by rw [ht, hs, h.strands], by rw [htc, hsc]; exact h.discarded⟩
  | dropped =>
    obtain ⟨hs, hsc⟩ := hlatch .markDropped (fun k => { k with marksDropped := sat16 (k.marksDropped + 1) }) s
    obtain ⟨ht, htc⟩ := hlatch .markDropped (fun k => { k with marksDropped := sat16 (k.marksDropped + 1) }) t
    exact ⟨by rw [ht, hs, h.strands], by rw [htc, hsc]; exact h.discarded⟩
  | scheduled => exact ⟨by rw [modStrand_strands, modStrand_strands, h.strands, h.ms], h.discarded⟩
  | merged => exact ⟨h.strands, h.discarded⟩
  | none => exact ⟨h.strands, h.discarded⟩
  | suppressed => exact ⟨h.strands, h.discarded⟩

theorem classify_marks (c : Chan) (set : ParamSet) (k : Closure) (s : State) :
    (∀ e, matchingEntry (heldW s) set k = some e →
      (classify c set k s).strands = (requested c set e k s).strands ∧
        (classify c set k s).status.partCounters.marksDiscarded = (requested c set e k s).status.partCounters.marksDiscarded) ∧
      (matchingEntry (heldW s) set k = none →
        (classify c set k s).strands = s.strands ∧
          (classify c set k s).status.partCounters.marksDiscarded = s.status.partCounters.marksDiscarded) := by
  refine ⟨fun e he => ?_, fun he => ?_⟩
  · rw [classify_matched he, modRecord_strands, modRecord_status, produce_discarded]
    exact ⟨(produce_rest _ _).2.1, rfl⟩
  · rw [classify_unmatched he]
    exact ⟨rfl, rfl⟩

theorem Closes.mode {c : Chan} {s t : State} (h : Closes c s t) : (t.chan c).record.mode = (s.chan c).record.mode := by
  rw [h.chan]

theorem classify_sameMarks {c : Chan} {s t : State} (set : ParamSet) (k : Closure) (h : SameMarks c s t) :
    SameMarks c (classify c set k s) (classify c set k t) := by
  have hs := classify_closes c s set k
  have ht := classify_closes c t set k
  have hmarks : (classify c set k t).strands = (classify c set k s).strands ∧
      (classify c set k t).status.partCounters.marksDiscarded = (classify c set k s).status.partCounters.marksDiscarded := by
    obtain ⟨hsome, hnone⟩ := classify_marks c set k s
    obtain ⟨hsome', hnone'⟩ := classify_marks c set k t
    rw [h.width] at hsome' hnone'
    cases hm : matchingEntry (heldW s) set k with
    | none =>
      rw [(hnone hm).1, (hnone hm).2, (hnone' hm).1, (hnone' hm).2]
      exact ⟨h.strands, h.discarded⟩
    | some e =>
      rw [(hsome e hm).1, (hsome e hm).2, (hsome' e hm).1, (hsome' e hm).2]
      unfold requested
      rw [h.mode]
      split
      · exact requestMark_sameMarks _ h
      · exact ⟨h.strands, h.discarded⟩
  refine ⟨?_, ?_, hmarks.1, hmarks.2, by rw [hs.mode, ht.mode, h.mode]⟩
  · rw [heldW, heldW, hs.only.setup, ht.only.setup]
    exact h.width
  · rw [hs.only.ms, ht.only.ms, h.ms]

theorem handedOver_sameMarks {c : Chan} {s t : State} (set : ParamSet) (cause : Cause) (ts : List Track)
    (h : SameMarks c s t) : SameMarks c (handedOver c set cause ts s) (handedOver c set cause ts t) := by
  unfold handedOver
  induction ts generalizing s t with
  | nil => exact h
  | cons x xs ih => exact ih (classify_sameMarks set _ h)

/-- R34: the marks as a teardown's closures leave them, where the episode requests none. -/
theorem teardownRecords_sameMarks {c : Chan} {s t : State} (h : SameMarks c s t) (hchan : t.chan c = s.chan c)
    (hepisode : (s.chan c).band.episode.state = .absent ∨ (s.chan c).band.prevCentre = none) :
    SameMarks c (handedOver c (s.chan c).params .stopped (s.chan c).tracks s) (teardownRecords c t) := by
  obtain ⟨u, hu⟩ : ∃ u, u = closeTracks c .stopped t := ⟨_, rfl⟩
  have htracks : SameMarks c (handedOver c (s.chan c).params .stopped (s.chan c).tracks s) u := by
    rw [hu, closeTracks, hchan]
    refine handedOver_sameMarks (s.chan c).params .stopped (s.chan c).tracks ⟨h.width, h.ms, h.strands, h.discarded, ?_⟩
    rw [setTracks, chan_modChan_same, hchan]
  have hband : (u.chan c).band = (s.chan c).band := by rw [hu, (closeTracks_tracks c .stopped t).2.1, hchan]
  obtain ⟨v, hv⟩ : ∃ v, v = closeAll c .stopped t := ⟨_, rfl⟩
  have hclose : v = closeEpisode c (u.chan c).params .stopped u := by rw [hv, hu]; rfl
  have hvmarks : SameMarks c (handedOver c (s.chan c).params .stopped (s.chan c).tracks s) v := by
    by_cases habsent : (s.chan c).band.episode.state = .absent
    · rw [hclose, closeEpisode_absent _ _ (by rw [hband]; exact habsent)]
      exact htracks
    · rw [hclose, closeEpisode_present _ _ (by rw [hband]; exact habsent), afterTest]
      simp only [hband, hepisode.resolve_left habsent]
      refine ⟨htracks.width, htracks.ms, htracks.strands, htracks.discarded, ?_⟩
      rw [chan_setChan_same]
      exact htracks.mode
  unfold teardownRecords
  split
  · have hproduce : endBillet c .stopped .stopped t = produce (.billet (billetRecord c .stopped v)) v := by rw [hv]; rfl
    have hcloses := produce_closes c v (.billet (billetRecord c .stopped v))
    rw [hproduce]
    refine ⟨?_, hcloses.only.ms.trans hvmarks.ms, (produce_rest _ _).2.1.trans hvmarks.strands,
      (produce_discarded _ _).trans hvmarks.discarded, hcloses.mode.trans hvmarks.mode⟩
    rw [heldW, hcloses.only.setup]
    exact hvmarks.width
  · rw [← hv]
    exact hvmarks

theorem removeMarks_congr {s t : State} (c : Chan) (hstrands : t.strands = s.strands)
    (hdiscarded : t.status.partCounters.marksDiscarded = s.status.partCounters.marksDiscarded) :
    (removeMarks c t).strands = (removeMarks c s).strands ∧
      (removeMarks c t).status.partCounters.marksDiscarded = (removeMarks c s).status.partCounters.marksDiscarded := by
  rw [removeMarks_strands, removeMarks_strands, removeMarks_discarded, removeMarks_discarded, hstrands, hdiscarded]
  exact ⟨rfl, rfl⟩

/-! ## The two commands -/

/-- R34, R35: the channels that STOP (into OFF) or ISOLATE (into PASS_ONLY) tears down. -/
def tearsDown (into : ChanState) (ch : Channel) : Bool :=
  match ch.record.state with
  | .waiting => true
  | .inspecting => true
  | .stalled => true
  | .off => decide (into = .passOnly)
  | .passOnly => false

theorem tearsDown_eq (into : ChanState) (s : State) (c : Chan) :
    tearsDown into (s.chan c) = (watches s c || (decide ((s.chan c).record.state = .off) && decide (into = .passOnly))) := by
  unfold tearsDown watches
  cases (s.chan c).record.state <;> simp

theorem tearsDown_iff {into : ChanState} {s : State} {c : Chan} :
    tearsDown into (s.chan c) = true ↔ (Watching s c ∨ ((s.chan c).record.state = .off ∧ into = .passOnly)) := by
  rw [tearsDown_eq, Bool.or_eq_true, Bool.and_eq_true, decide_eq_true_eq, decide_eq_true_eq]

/-- R35: a PASS_ONLY channel that STOP has made OFF, or the channel as it is. -/
def setDown (into : ChanState) (ch : Channel) : Channel :=
  if ch.record.state = .passOnly ∧ into = .off then { ch with record := { ch.record with state := .off } } else ch

/-- STOP or ISOLATE. -/
abbrev Downs (k : ChanCommand) (into : ChanState) : Prop :=
  (k = .stop ∧ into = .off) ∨ (k = .isolate ∧ into = .passOnly)

theorem takeEffect_downs {k : ChanCommand} {into : ChanState} (hk : Downs k into) (c : Chan) (s : State) :
    takeEffect c k s =
      if tearsDown into (s.chan c) = true then teardown c into s else setChan c (setDown into (s.chan c)) s := by
  have hself (ch : Channel) (h : ch = s.chan c) : s = setChan c ch s := by rw [h, setChan_self]
  rcases hk with ⟨rfl, rfl⟩ | ⟨rfl, rfl⟩
  · simp only [takeEffect, stopChannel, tearsDown, setDown]
    cases h : (s.chan c).record.state with
    | off => exact hself _ (if_neg (by simp))
    | passOnly => rfl
    | waiting => rfl
    | inspecting => rfl
    | stalled => rfl
  · simp only [takeEffect, isolateChannel, tearsDown, setDown]
    cases h : (s.chan c).record.state with
    | passOnly => exact hself _ (if_neg (by simp))
    | off => rfl
    | waiting => rfl
    | inspecting => rfl
    | stalled => rfl

theorem suits_downs {k : ChanCommand} {into : ChanState} (hk : Downs k into) (st : ChanState) : suits k st = true := by
  rcases hk with ⟨rfl, rfl⟩ | ⟨rfl, rfl⟩ <;> rfl

/-- R34: the channel `a` torn down into `into` has become `b`. -/
def TornChan (into : ChanState) (a b : Channel) : Prop :=
  b =
    { a with
      capture := Capture.empty
      held := []
      tracks := []
      band := b.band
      record := { a.record with
        state := into, stall := none, abandon := none, pendingCmd := none, abandonDue := false
        serial := b.record.serial, tallies := b.record.tallies } } ∧
    b.band.episode.state = .absent

theorem TearsDown.tornChan {into : ChanState} {c : Chan} {s t : State} (h : TearsDown into c s t) :
    TornChan into (s.chan c) (t.chan c) := ⟨h.chan, h.episode⟩

theorem tornDown_of_tornChan {into : ChanState} {c : Chan} {s t : State} (h : TornChan into (s.chan c) (t.chan c))
    (hmarks : ∀ m ∈ (t.strands.get (strandOf c)).queue, m.chan ≠ c)
    (hheld : ∀ k ∈ (s.chan c).held, ∀ x ∈ t.path.list, x.id = k.txn → x.held = false) : TornDown into c s t := by
  obtain ⟨hchan, hepisode⟩ := h
  refine ⟨?_, ?_, ?_, ?_, ?_, ?_, ?_, ?_, hepisode, ?_, ?_, ?_, ?_, hmarks, hheld⟩
  all_goals rw [hchan]

theorem deliveryOrder_single (n : Nat) (c : Chan) : deliveryOrder n (BitVec.ofNat 16 (2 ^ c.val)) = [c] := by
  have hbit : ∀ c d : Chan, (BitVec.ofNat 16 (2 ^ c.val)).getLsbD d.val = true ↔ d = c := by decide
  refine List.perm_singleton.mp ((List.perm_ext_iff_of_nodup (nodup_deliveryOrder _ _) (by simp)).mpr fun d => ?_)
  rw [mem_deliveryOrder, hbit, List.mem_singleton]

section Downs

variable {k : ChanCommand} {into : ChanState} {code tag : Byte} {mask : BitVec 16} {s : State}

theorem deliverTo_downs (hk : Downs k into) (h : TakenAtOnce mask s) {done : List Chan} {c : Chan} {u : State}
    (hmask : mask.getLsbD c.val = true) (hc : c ∉ done) (hdel : Delivered k (deliveryStart code tag mask s) done u) :
    deliverTo k u c =
      if tearsDown into (s.chan c) = true then teardown c into u else setChan c (setDown into (s.chan c)) u := by
  have huc : u.chan c = s.chan c := (hdel.untouched c hc).1
  rw [deliverTo_atOnce h hmask hc hdel, if_pos (suits_downs hk _), takeEffect_downs hk, huc]

theorem deliveryEnd_downs_chan (hk : Downs k into) (h : TakenAtOnce mask s) {c : Chan} (hc : mask.getLsbD c.val = true) :
    (tearsDown into (s.chan c) = true → TornChan into (s.chan c) ((deliveryEnd k code tag mask s).chan c)) ∧
      (tearsDown into (s.chan c) = false → (deliveryEnd k code tag mask s).chan c = setDown into (s.chan c)) := by
  refine deliveryEnd_chan (k := k) (code := code) (tag := tag) (s := s)
    (R := fun c ch _ => (tearsDown into (s.chan c) = true → TornChan into (s.chan c) ch) ∧
      (tearsDown into (s.chan c) = false → ch = setDown into (s.chan c))) (fun done c u hc hdone hdel => ?_) hc
  have huc : u.chan c = s.chan c := (hdel.untouched c hdone).1
  rw [deliverTo_downs hk h hc hdone hdel]
  refine ⟨fun htorn => ?_, fun htorn => ?_⟩
  · rw [if_pos htorn, ← huc]
    exact (teardown_tearsDown c into u).tornChan
  · rw [if_neg (by simp [htorn]), chan_setChan_same]

theorem deliveryEnd_downs_aborted (hk : Downs k into) (h : TakenAtOnce mask s) :
    AbortedBy (fun c => mask.getLsbD c.val = true ∧ tearsDown into (s.chan c) = true) s (deliveryEnd k code tag mask s) := by
  refine deliveryEnd_aborted (fun c => tearsDown into (s.chan c)) fun done c u hc hdone hdel => ?_
  rw [deliverTo_downs hk h hc hdone hdel]
  split
  · exact (teardown_tearsDown c into u).list
  · rfl

theorem deliveryEnd_downs_noMarks (hk : Downs k into) (h : TakenAtOnce mask s) {c : Chan} (hc : mask.getLsbD c.val = true)
    (htorn : tearsDown into (s.chan c) = true) :
    ∀ m ∈ ((deliveryEnd k code tag mask s).strands.get (strandOf c)).queue, m.chan ≠ c := by
  refine deliveryEnd_noMarks (torn := fun c => tearsDown into (s.chan c)) (fun done c u hc hdone hdel htorn => ?_) hc htorn
  rw [deliverTo_downs hk h hc hdone hdel, if_pos htorn]
  exact (teardown_tearsDown c into u).noMarks

theorem deliveryEnd_downs_pending (hk : Downs k into) (h : TakenAtOnce mask s) :
    NonePending (deliveryEnd k code tag mask s) := by
  intro c
  have hnone : (s.chan c).record.pendingCmd = none := h.2.2.1 c
  by_cases hc : mask.getLsbD c.val = true
  · obtain ⟨htorn, hkept⟩ := deliveryEnd_downs_chan (code := code) (tag := tag) hk h hc
    cases ht : tearsDown into (s.chan c) with
    | true => rw [(htorn ht).1]
    | false =>
      rw [hkept ht, setDown]
      split
      · exact hnone
      · exact hnone
  · rw [(deliveryEnd_untouched k code tag s (by simpa using hc)).1]
    exact hnone

theorem deliveryStart_sameMarks (code tag : Byte) (mask : BitVec 16) (c : Chan) (s : State) :
    SameMarks c s (deliveryStart code tag mask s) := ⟨rfl, rfl, rfl, rfl, rfl⟩

/-- R153: where no channel torn down has a track or an episode open, its marks are those of the state before. -/
theorem deliveryEnd_downs_marks (hk : Downs k into) (h : TakenAtOnce mask s)
    (hquiet : ∀ c : Chan, mask.getLsbD c.val = true → tearsDown into (s.chan c) = true →
      (s.chan c).tracks = [] ∧ (s.chan c).band.episode.state = .absent) :
    MarksRemoved (fun c => mask.getLsbD c.val && tearsDown into (s.chan c)) s (deliveryEnd k code tag mask s) := by
  refine deliveryEnd_marksRemoved (fun c => tearsDown into (s.chan c)) fun done c u hc hdone hdel => ?_
  have huc : u.chan c = s.chan c := (hdel.untouched c hdone).1
  rw [deliverTo_downs hk h hc hdone hdel]
  cases ht : tearsDown into (s.chan c) with
  | true =>
    obtain ⟨htracks, habsent⟩ := hquiet c hc ht
    have hdown := teardown_tearsDown c into u
    have hmarks := teardownRecords_sameMarks (c := c) (s := u) (t := u) ⟨rfl, rfl, rfl, rfl, rfl⟩ rfl
      (.inl (by rw [huc]; exact habsent))
    rw [huc, htracks] at hmarks
    simp only [if_true]
    rw [hdown.strands, hdown.discarded]
    exact removeMarks_congr c hmarks.strands hmarks.discarded
  | false => exact ⟨rfl, rfl⟩

/-- A mask of one channel. -/
theorem deliveryEnd_single (hk : Downs k into) (h : TakenAtOnce mask s) {c : Chan} (hmask : mask = BitVec.ofNat 16 (2 ^ c.val))
    (htorn : tearsDown into (s.chan c) = true) :
    deliveryEnd k code tag mask s = teardown c into (deliveryStart code tag mask s) := by
  have horder : deliveryOrder s.freeCount mask = [c] := by rw [hmask, deliveryOrder_single]
  have hc : mask.getLsbD c.val = true := (mem_deliveryOrder s.freeCount mask c).mp (by rw [horder]; simp)
  rw [deliveryEnd, horder, List.foldl_cons, List.foldl_nil,
    deliverTo_downs hk h hc (by simp) (delivered_nothing k (deliveryStart code tag mask s)), if_pos htorn]

end Downs

theorem billetOpen_teardown {into : ChanState} {s : State} {c : Chan} (h : billetOpen s c = true) :
    tearsDown into (s.chan c) = true := by
  unfold billetOpen at h
  unfold tearsDown
  cases hs : (s.chan c).record.state <;> simp_all

/-- STOP and ISOLATE, by the state into which they tear down. -/
theorem downs_tear {k : ChanCommand} {into : ChanState} {i : Instr} {code tag : Byte} {mask : BitVec 16} {s : State}
    (hk : Downs k into) (hi : commandOf i = some (code, tag, mask)) (hcode : chanCommandOf code = some k)
    (h : TakenAtOnce mask s) :
    ∃ t, exec i s = .next t ∧ t.setup.command = .ready ∧ WordOffered 0x2000 (statusWord tag code 1 0 0 0) t ∧
      t.engine = s.engine ∧ OffersOnly (setCommand .ready (deliveryEnd k code tag mask s)) t ∧
      t.status = (deliveryEnd k code tag mask s).status := by
  have hnone := deliveryEnd_downs_pending (code := code) (tag := tag) hk h
  have hshows (c : Chan) (hc : mask.getLsbD c.val = true) : showsPartial k s c = false := by
    rw [showsPartial_atOnce h hc, suits_downs hk]
    rfl
  obtain ⟨htaken, hmask, -, -⟩ := h
  obtain ⟨t, hexec, hdone⟩ := exec_channels_done hi hcode htaken hmask hnone
  exact ⟨t, hexec, congrArg Setup.command hdone.rest.setup, hdone.full hshows,
    hdone.rest.engine.trans (deliveryEnd_delivered k code tag mask s).engine, hdone.rest, hdone.status⟩

/-- Settles O39: the channels that are torn down, their trailers, records and marks; the others of the mask. -/
theorem stopAndIsolateTearTheChannelDown : Obligations.StopAndIsolateTearTheChannelDown := by
  intro i code into tag mask s hcases h
  obtain ⟨k, hk, hi, hcode⟩ : ∃ k, Downs k into ∧ commandOf i = some (code, tag, mask) ∧ chanCommandOf code = some k := by
    rcases hcases with ⟨rfl, rfl, rfl⟩ | ⟨rfl, rfl, rfl⟩
    · exact ⟨.stop, .inl ⟨rfl, rfl⟩, rfl, rfl⟩
    · exact ⟨.isolate, .inr ⟨rfl, rfl⟩, rfl, rfl⟩
  obtain ⟨t, hexec, hready, hword, hengine, hrest, hstatus⟩ := downs_tear hk hi hcode h
  have haborted : AbortedBy (fun c => mask.getLsbD c.val = true ∧ tearsDown into (s.chan c) = true) s t :=
    (deliveryEnd_downs_aborted hk h).of_list hrest.list
  have hkept {c : Chan} (hc : mask.getLsbD c.val = true) (hdown : tearsDown into (s.chan c) = false) :
      t.chan c = setDown into (s.chan c) := by
    rw [hrest.chan]
    exact (deliveryEnd_downs_chan hk h hc).2 hdown
  refine ⟨t, hexec, hready, hword, hengine, fun c hc => ?_, fun c hc hstate => ?_, fun c hc hstate hoff => ?_,
    fun c hc htorn => ?_, ?_, fun c hmask hopen hends => ?_, fun c hmask hwatch hepisode => ?_, fun torn htorn hquiet => ?_⟩
  · rw [hrest.chan]
    exact (deliveryEnd_untouched k code tag s hc).1
  · have hinto : into = .off ∨ into = .passOnly := hk.imp And.right And.right
    have hdown : tearsDown into (s.chan c) = false := by
      unfold tearsDown
      rcases hinto with rfl | rfl
      · rw [hstate]
        rfl
      · rw [hstate]
    rw [hkept hc hdown, setDown, if_neg]
    rintro ⟨hpass, hoff⟩
    rw [hstate, hoff] at hpass
    cases hpass
  · have hdown : tearsDown into (s.chan c) = false := by
      unfold tearsDown
      rw [hstate]
    rw [hkept hc hdown, setDown, if_pos ⟨hstate, hoff⟩]
  · have hdown := tearsDown_iff.mpr htorn
    refine tornDown_of_tornChan ?_ ?_ fun k hk x hx hid => haborted.notHeld ⟨hc, hdown⟩ hk hx hid
    · rw [hrest.chan]
      exact (deliveryEnd_downs_chan hk h hc).1 hdown
    · rw [hrest.strands]
      exact deliveryEnd_downs_noMarks hk h hc hdown
  · refine AbortedBy.trailersAborted (haborted.congr fun c => ?_)
    rw [tearsDown_iff]
  · have hsingle := deliveryEnd_single (code := code) (tag := tag) hk h hmask (billetOpen_teardown hopen)
    have hended := (teardown_tearsDown c into (deliveryStart code tag mask s)).billetEnded hopen hends
    rw [← hsingle] at hended
    exact billetEnded_congr hended rfl rfl rfl rfl rfl rfl rfl rfl rfl rfl (by rw [hrest.chan]; rfl)
      (by rw [hrest.chan]; rfl) (hrest.ring.trans (billetEnded_ring hended))
  · have hdown : tearsDown into (s.chan c) = true := tearsDown_iff.mpr (.inl hwatch)
    have hsingle := deliveryEnd_single (code := code) (tag := tag) hk h hmask hdown
    have htears := teardown_tearsDown c into (deliveryStart code tag mask s)
    rw [← hsingle] at htears
    have hmarks := teardownRecords_sameMarks (deliveryStart_sameMarks code tag mask c s) rfl hepisode
    obtain ⟨hstrands, hdiscarded⟩ := removeMarks_congr c hmarks.strands hmarks.discarded
    refine marksRemoved_congr (marksRemoved_step (marksRemoved_none (torn := fun _ => false) rfl rfl fun _ => rfl) rfl
      (hrest.strands.trans (htears.strands.trans hstrands)) ?_) (fun d => by simp) rfl rfl rfl rfl
    rw [hstatus]
    exact htears.discarded.trans hdiscarded
  · have hdowns (c : Chan) : torn c = (mask.getLsbD c.val && tearsDown into (s.chan c)) := by rw [htorn, tearsDown_eq]
    refine marksRemoved_congr (deliveryEnd_downs_marks hk h fun c hc hdown => hquiet c ?_) hdowns rfl rfl hrest.strands
      (by rw [hstatus])
    rw [hdowns, hc, hdown]
    rfl

end Sys2Proof.Machine
end

section
/-! RESET_PART's second part (R182, R184, R188). -/

namespace Sys2Proof.Machine

open Sys2Proof.Safety

/-! ## The condition sets (R184) -/

theorem resetSet_offersOnly (s : State) (o : Owner) : OffersOnly s (resetSet s o) := by
  unfold resetSet
  split
  · exact .refl s
  · exact (setCondWord_offersOnly o (fun w => { w with latched := resetLatched s o }) s).trans (offerWord_offersOnly _ _ _)

theorem resetLatched_congr {s t : State} (h : t.ring = s.ring) (o : Owner) : resetLatched t o = resetLatched s o := by
  cases o with
  | chan c => rfl
  | part => rw [resetLatched, resetLatched, h]

theorem condWordOf_resetSet_same (s : State) (o : Owner) : (condWordOf (resetSet s o).status o).latched = resetLatched s o := by
  unfold resetSet
  split
  · next h => exact h.symm
  · rw [offerWord_status, modStatus_status, condWordOf_setCondWord_same]

theorem condWordOf_resetSet_other {o p : Owner} (s : State) (h : p ≠ o) :
    condWordOf (resetSet s o).status p = condWordOf s.status p := by
  unfold resetSet
  split
  · rfl
  · rw [offerWord_status, modStatus_status, condWordOf_setCondWord_other _ _ h]

theorem mem_allOwners (o : Owner) : o ∈ allOwners := by
  cases o with
  | chan c => exact List.mem_append_left _ (List.mem_map.mpr ⟨c, mem_allChans c, rfl⟩)
  | part => exact List.mem_append_right _ (by simp)

/-- R184, R188: the status unit after the second part. -/
theorem resetStatus_rest (s : State) :
    OffersOnly
        (modStatus (fun st => { st with counters := Bank16.all ChanCounters.zero, partCounters := PartCounters.zero }) s)
        (resetStatus s) ∧
      ∀ o, (condWordOf (resetStatus s).status o).latched = resetLatched s o := by
  obtain ⟨u, hu⟩ : ∃ u, u =
      modStatus (fun st => { st with counters := Bank16.all ChanCounters.zero, partCounters := PartCounters.zero }) s := ⟨_, rfl⟩
  have hring : u.ring = s.ring := by rw [hu]; rfl
  have hnodup : allOwners.Nodup := by decide
  have hsets := foldl_reached (f := resetSet) (s := u)
    (P := fun done v => OffersOnly u v ∧ ∀ o ∈ done, (condWordOf v.status o).latched = resetLatched s o)
    hnodup ⟨.refl u, fun o ho => absurd ho (by simp)⟩ fun done p v _ hp ⟨hoffers, hset⟩ => by
      refine ⟨hoffers.trans (resetSet_offersOnly v p), fun o ho => ?_⟩
      by_cases hop : o = p
      · subst hop
        rw [condWordOf_resetSet_same, resetLatched_congr (hoffers.ring.trans hring)]
      · rw [condWordOf_resetSet_other v hop]
        exact hset o (by simpa [hop] using ho)
  obtain ⟨hoffers, hset⟩ := hsets
  have hrun : resetStatus s = refreshAttention (allOwners.foldl resetSet u) := by rw [hu]; rfl
  rw [hrun, ← hu]
  refine ⟨hoffers.trans (refreshAttention_offersOnly _), fun o => ?_⟩
  rw [condWordOf_refreshAttention]
  exact hset o (mem_allOwners o)

/-! ## The captures dropped (R21) -/

/-- R21: every channel's capture state dropped. -/
def dropAll (s : State) : State := allChans.foldl (fun t c => dropCapture c t) s

theorem dropCapture_rest (c : Chan) (s : State) :
    (dropCapture c s).ring = s.ring ∧ (dropCapture c s).strands = s.strands ∧ (dropCapture c s).setup = s.setup ∧
      (dropCapture c s).status = s.status ∧
      (dropCapture c s).path.list = s.path.list.map (abortTxn (s.chan c).held) ∧
      ((dropCapture c s).chan c).params = (s.chan c).params := by
  rw [dropCapture_eq]
  refine ⟨rfl, rfl, rfl, rfl, rfl, ?_⟩
  rw [chan_modChan_same]
  rfl

/-- From `s` to `u`, whose list may have grown, every held trailer is released. -/
theorem dropAll_rest {s u : State} (hchans : u.chans = s.chans) (hlist : AbortedBy (fun _ => False) s u) :
    (dropAll u).ring = u.ring ∧ (dropAll u).strands = u.strands ∧ (dropAll u).setup = u.setup ∧
      (dropAll u).status = u.status ∧ (∀ c, ((dropAll u).chan c).params = (s.chan c).params) ∧
      AbortedBy (fun _ => True) s (dropAll u) := by
  have hnodup : allChans.Nodup := by decide
  have hdropped := foldl_reached (f := fun t c => dropCapture c t) (s := u)
    (P := fun done v => v.ring = u.ring ∧ v.strands = u.strands ∧ v.setup = u.setup ∧ v.status = u.status ∧
      (∀ c, (v.chan c).params = (s.chan c).params) ∧ (∀ c, c ∉ done → (v.chan c).held = (s.chan c).held) ∧
      AbortedBy (fun c => c ∈ done) s v)
    hnodup
    ⟨rfl, rfl, rfl, rfl, fun c => by rw [chan_of_chans hchans], fun c _ => by rw [chan_of_chans hchans],
      hlist.congr fun c => by simp⟩
    fun done c v _ hc ⟨hring, hstrands, hsetup, hstatus, hparams, hheld, haborted⟩ => by
      obtain ⟨hring', hstrands', hsetup', hstatus', hlist', hparams'⟩ := dropCapture_rest c v
      have hothers := (dropCapture_leavesOthers c v).only.others
      refine ⟨hring'.trans hring, hstrands'.trans hstrands, hsetup'.trans hsetup, hstatus'.trans hstatus, fun d => ?_,
        fun d hd => ?_, (haborted.step (hheld c hc) hlist').congr fun d => by simp⟩
      · by_cases hdc : d = c
        · subst hdc
          exact hparams'.trans (hparams d)
        · rw [hothers d hdc]
          exact hparams d
      · simp only [List.mem_append, List.mem_singleton, not_or] at hd
        rw [hothers d hd.2]
        exact hheld d hd.1
  obtain ⟨hring, hstrands, hsetup, hstatus, hparams, -, haborted⟩ := hdropped
  exact ⟨hring, hstrands, hsetup, hstatus, hparams, haborted.congr fun c => by simp [mem_allChans]⟩

/-! ## The second part (R182) -/

theorem resetPartStrand_rest (k : StrandState) :
    (resetPartStrand k).queue = [] ∧ (resetPartStrand k).lastCount = none ∧ (resetPartStrand k).pulse = none ∧
      (resetPartStrand k).merge = k.mergeHeld.getD k.merge ∧ (resetPartStrand k).pulseMs = k.pulseMs ∧
      (resetPartStrand k).lifeS = k.lifeS := by
  have heq : resetPartStrand k = withMarks [] { k with lastCount := none, pulse := none } :=
    settleMerge_eq [] { k with lastCount := none, pulse := none }
  rw [heq]
  exact ⟨rfl, rfl, rfl, rfl, rfl, rfl⟩

/-- R182: the second part, told against a state `s` whose channels, strands, ring writer, geometry and snapshot timer `u` has. -/
theorem resetSecondPart_blocksReset {s u : State} (hchans : u.chans = s.chans) (hlist : AbortedBy (fun _ => False) s u)
    (hstrands : u.strands = s.strands) (hring : u.ring = s.ring) (hgeometry : u.setup.geometry = s.setup.geometry)
    (hsnapshot : u.status.snapshot = s.status.snapshot) : BlocksReset s (resetSecondPart u) := by
  obtain ⟨v, hv⟩ : ∃ v, v = dropAll u := ⟨_, rfl⟩
  obtain ⟨hvring, hvstrands, hvsetup, hvstatus, hvparams, hvaborted⟩ := dropAll_rest hchans hlist
  rw [← hv] at hvring hvstrands hvsetup hvstatus hvparams hvaborted
  obtain ⟨hoffers, hset⟩ := resetStatus_rest (resetBlocks v)
  obtain ⟨w, hw⟩ : ∃ w, w = resetStatus (resetBlocks v) := ⟨_, rfl⟩
  have hrun : resetSecondPart u = modRing (fun r => { r with resetWait := true, age := none }) w := by
    rw [hw, hv]
    rfl
  rw [← hw] at hoffers hset
  have haborted : AbortedBy (fun _ => True) s (resetSecondPart u) := by
    refine hvaborted.of_list ?_
    rw [hrun]
    exact hoffers.list
  have hringEq : w.ring = s.ring := by
    rw [hoffers.ring]
    exact hvring.trans hring
  have hblocked : (resetBlocks v).ring = s.ring := hvring.trans hring
  refine ⟨fun c => ?_, fun c h hh x hx hid => haborted.notHeld trivial hh hx hid, haborted.trailersAborted, ?_, ?_, fun k => ?_,
    ?_, ?_, ?_, fun c => ⟨?_, ?_⟩, ?_, ?_, ?_⟩
  · rw [hrun]
    change w.chan c = _
    rw [hoffers.chan]
    change (v.chans.map resetChannel).get c = _
    rw [Bank16.get_map, ← hvparams c]
    rfl
  · rw [hrun]
    exact hoffers.unrouted
  · rw [hrun]
    exact hoffers.engine
  · have hk : (resetSecondPart u).strands.get k = resetPartStrand (s.strands.get k) := by
      rw [hrun, modRing_strands, hoffers.strands]
      change (v.strands.map resetPartStrand).get k = _
      rw [Bank4.get_map, hvstrands, hstrands]
    rw [hk]
    exact resetPartStrand_rest _
  · rw [hrun, modRing_ring, hringEq]
  · rw [hrun]
    exact hoffers.lastSide
  · rw [hrun, modRing_setup, hoffers.setup]
    change v.setup.geometry = _
    rw [hvsetup, hgeometry]
  · rw [hrun]
    exact hset (.chan c)
  · rw [hrun, modRing_status, hoffers.counters]
    exact Bank16.get_all _ c
  · rw [hrun, modRing_status, hoffers.partCounters]
    rfl
  · rw [hrun, modRing_status]
    have hpart := hset .part
    rw [resetLatched, hblocked] at hpart
    refine hpart.trans ?_
    rw [show condSet (partCondBit .ringBlocked) = 2 by decide]
  · rw [hrun, modRing_status, hoffers.snapshot]
    change v.status.snapshot = _
    rw [hvstatus, hsnapshot]

/-- R182: the second part leaves the command in progress. -/
theorem resetSecondPart_setup (u : State) : (resetSecondPart u).setup = u.setup := by
  have hdrop : (dropAll u).setup = u.setup :=
    (dropAll_rest (s := u) rfl (abortedBy_nothing (ws := []) (by simp) (by simp) (by simp))).2.2.1
  obtain ⟨v, hv⟩ : ∃ v, v = dropAll u := ⟨_, rfl⟩
  obtain ⟨w, hw⟩ : ∃ w, w = resetStatus (resetBlocks v) := ⟨_, rfl⟩
  have hrun : resetSecondPart u = modRing (fun r => { r with resetWait := true, age := none }) w := by
    rw [hw, hv]
    rfl
  have hoffers := (resetStatus_rest (resetBlocks v)).1
  rw [← hw] at hoffers
  rw [← hv] at hdrop
  rw [hrun, modRing_setup, hoffers.setup]
  exact hdrop

/-- Settles O43: the second part at once, or the wait for the analysis in flight. -/
theorem resetPartResetsEveryBlock : Obligations.ResetPartResetsEveryBlock := by
  intro tag mask s h
  obtain ⟨ha, hr, hm, hg⟩ := h
  obtain ⟨u, hu⟩ : ∃ u, u = setCommand (.inProgress (newRunning tag 8)) (commandWritten 8 tag mask s) := ⟨_, rfl⟩
  have hexec : exec (.resetPart tag mask) s = .next (runResetPart tag 8 (commandWritten 8 tag mask s)) := by
    rw [exec_command rfl ha hr hm, runCommand_known (s := commandWritten 8 tag mask s) (by decide) (by decide) (.inr hg)]
    rfl
  have hcommand : u.setup.command = .inProgress (newRunning tag 8) := by rw [hu]; rfl
  refine ⟨fun hidle => ?_, fun hbusy => ?_⟩
  · have hrun : runResetPart tag 8 (commandWritten 8 tag mask s) = resetSecondPart u := by
      rw [runResetPart, hu, show (commandWritten 8 tag mask s).engine.analysis = none from hidle]
    refine ⟨resetSecondPart u, by rw [hexec, hrun], ?_, newRunning tag 8, ?_, rfl, rfl⟩
    · rw [hu]
      refine resetSecondPart_blocksReset rfl (abortedBy_nothing (ws := [_]) rfl (fun w hw => ?_) fun _ h => h) rfl rfl rfl rfl
      rw [List.mem_singleton.mp hw]
    · rw [resetSecondPart_setup]
      exact hcommand
  · obtain ⟨a, hsome⟩ := Option.ne_none_iff_exists'.mp hbusy
    have hrun : runResetPart tag 8 (commandWritten 8 tag mask s) = u := by
      rw [runResetPart, hu, show (commandWritten 8 tag mask s).engine.analysis = some a from hsome]
    refine ⟨u, by rw [hexec, hrun], ?_, newRunning tag 8, hcommand, rfl, rfl⟩
    rw [hu]
    exact ⟨rfl, rfl, rfl, rfl, rfl, rfl, rfl, rfl⟩

end Sys2Proof.Machine
end

section
/-! APPLY past its checks (R175 to R179). -/

namespace Sys2Proof.Machine

open Sys2Proof.Safety

/-! ## The settings given (R146, R179, R187, R189) -/

/-- R179: a channel as a set is given to it. -/
def givenSet (p : ParamSet) (ch : Channel) : Channel :=
  if ch.record.state = .inspecting then { ch with waiting := some p }
  else { ch with params := p, band := { ch.band with effPitch := effectivePitch p.chan ch.band.pitchRing } }

theorem giveSet_eq (w : Nat) (s : State) (c : Chan) :
    giveSet w s c = setChan c (givenSet (clampedSet w s.setup.staged c) (s.chan c)) s := by
  have hgiven (h : (s.chan c).record.state ≠ .inspecting) :
      recomputePitch c (modChan c (fun ch => { ch with params := clampedSet w s.setup.staged c }) s) =
        setChan c (givenSet (clampedSet w s.setup.staged c) (s.chan c)) s := by
    rw [recomputePitch, modChan_modChan, givenSet, if_neg h]
    rfl
  unfold giveSet
  cases h : (s.chan c).record.state with
  | inspecting => simp only [givenSet, h, if_true]; rfl
  | off => exact hgiven (by rw [h]; simp)
  | waiting => exact hgiven (by rw [h]; simp)
  | stalled => exact hgiven (by rw [h]; simp)
  | passOnly => exact hgiven (by rw [h]; simp)

theorem foldl_giveSet (w : Nat) (s : State) :
    ∃ b, allChans.foldl (giveSet w) s = { s with chans := b } ∧
      ∀ c, b.get c = givenSet (clampedSet w s.setup.staged c) (s.chan c) := by
  have hnodup : allChans.Nodup := by decide
  obtain ⟨heq, hchans⟩ := foldl_reached (f := giveSet w) (s := s)
    (P := fun done u => u = { s with chans := u.chans } ∧
      ∀ c, u.chan c = if c ∈ done then givenSet (clampedSet w s.setup.staged c) (s.chan c) else s.chan c)
    hnodup ⟨rfl, fun c => (if_neg (by simp)).symm⟩ fun done c u _ hc ⟨heq, hchans⟩ => by
      rw [giveSet_eq]
      have hsetup : u.setup = s.setup := by rw [heq]
      refine ⟨?_, fun d => ?_⟩
      · rw [heq]
        rfl
      · by_cases hd : d = c
        · subst hd
          rw [chan_setChan_same, if_pos (by simp), hchans, if_neg hc, hsetup]
        · rw [chan_setChan_other u _ hd, hchans]
          exact if_congr (by simp [hd]) rfl rfl
  refine ⟨_, heq, fun c => ?_⟩
  exact (hchans c).trans (if_pos (mem_allChans c))

theorem foldl_giveStrand (s : State) :
    ∃ b, allStrands.foldl giveStrand s = { s with strands := b } ∧
      ∀ k, b.get k = applyStrand (clampStrand (stagedStrand s.setup.staged (strandSectionAt k.val))) (s.strands.get k) := by
  have hnodup : allStrands.Nodup := by decide
  have hall : ∀ k, k ∈ allStrands := by decide
  obtain ⟨heq, hstrands⟩ := foldl_reached (f := giveStrand) (s := s)
    (P := fun done u => u = { s with strands := u.strands } ∧
      ∀ k, u.strands.get k =
        if k ∈ done then applyStrand (clampStrand (stagedStrand s.setup.staged (strandSectionAt k.val))) (s.strands.get k)
        else s.strands.get k)
    hnodup ⟨rfl, fun k => (if_neg (by simp)).symm⟩ fun done j u _ hj ⟨heq, hstrands⟩ => by
      have hsetup : u.setup = s.setup := by rw [heq]
      refine ⟨?_, fun k => ?_⟩
      · rw [heq]
        rfl
      · rw [giveStrand, modStrand_strands]
        by_cases hk : k = j
        · subst hk
          rw [Bank4.get_set_same, if_pos (by simp), hstrands, if_neg hj, hsetup]
        · rw [Bank4.get_set_other _ _ hk, hstrands]
          exact if_congr (by simp [hk]) rfl rfl
  refine ⟨_, heq, fun k => ?_⟩
  exact (hstrands k).trans (if_pos (hall k))

theorem applyStrand_rest (p : StrandParams) (k : StrandState) :
    (applyStrand p k).pulseMs = p.pulseMs ∧ (applyStrand p k).lifeS = p.lifeS ∧ (applyStrand p k).queue = k.queue ∧
      if p.merge ≤ k.merge ∨ k.queue = [] then (applyStrand p k).merge = p.merge ∧ (applyStrand p k).mergeHeld = none
      else (applyStrand p k).merge = k.merge ∧ (applyStrand p k).mergeHeld = some p.merge := by
  unfold applyStrand
  split
  · exact ⟨rfl, rfl, rfl, rfl, rfl⟩
  · exact ⟨rfl, rfl, rfl, rfl, rfl⟩

/-- R179: what the switch of an APPLY gives, and what it leaves. -/
structure Switched (w : Nat) (p : PartSection) (s t : State) : Prop where
  chans : ∀ c, t.chan c = givenSet (clampedSet w s.setup.staged c) (s.chan c)
  strands : ∀ k,
    t.strands.get k = applyStrand (clampStrand (stagedStrand s.setup.staged (strandSectionAt k.val))) (s.strands.get k)
  ring : t.ring = { s.ring with batchAge := p.batchAge, flushOnTail := p.flushOnTail }
  setup : t.setup = s.setup
  engine : t.engine = s.engine
  maskChan : t.status.maskChan = p.maskChan
  maskPart : t.status.maskPart = p.maskPart
  code : t.status.code = p.code
  snapshot : t.status.snapshot = snapshotTimer s.ms p.code
  words : ∀ {o : Nat} {d : List Byte}, o ≠ attentionAt → WordOffered o d s → WordOffered o d t

theorem switchPart_switched (w : Nat) (s : State) : Switched w (clampPart (stagedPart s.setup.staged)) s (switchPart w s) := by
  obtain ⟨p, hp⟩ : ∃ p, p = clampPart (stagedPart s.setup.staged) := ⟨_, rfl⟩
  obtain ⟨b, hstrandsEq, hstrands⟩ := foldl_giveStrand s
  obtain ⟨u, hu⟩ : ∃ u, u = giveRing p { s with strands := b } := ⟨_, rfl⟩
  obtain ⟨v, hv⟩ : ∃ v, v = modStatus (fun st =>
    { st with maskChan := p.maskChan, maskPart := p.maskPart, code := p.code, snapshot := snapshotTimer u.ms p.code }) u :=
    ⟨_, rfl⟩
  have hoffers := refreshAttention_offersOnly v
  obtain ⟨x, hx⟩ : ∃ x, x = refreshAttention v := ⟨_, rfl⟩
  obtain ⟨y, hchansEq, hchans⟩ := foldl_giveSet w x
  have hrun : switchPart w s = { x with chans := y } := by
    rw [← hchansEq, hx, hv, hu, switchPart, hstrandsEq, hp]
    rfl
  rw [← hx] at hoffers
  have hxs : x.setup = s.setup ∧ x.chans = s.chans ∧ x.engine = s.engine := by
    rw [hoffers.setup, hoffers.chans, hoffers.engine, hv, hu]
    exact ⟨rfl, rfl, rfl⟩
  obtain ⟨hxsetup, hxchans, hxengine⟩ := hxs
  rw [← hp, hrun]
  refine ⟨fun c => ?_, fun k => ?_, ?_, hxsetup, hxengine, ?_, ?_, ?_, ?_, fun {o d} ho hword => ?_⟩
  · refine (hchans c).trans ?_
    rw [hxsetup, chan_of_chans hxchans]
  · rw [← hstrands]
    change x.strands.get k = _
    rw [hoffers.strands, hv, hu]
    rfl
  · change x.ring = _
    rw [hoffers.ring, hv, hu]
    rfl
  · change x.status.maskChan = _
    rw [hoffers.maskChan, hv]
    rfl
  · change x.status.maskPart = _
    rw [hoffers.maskPart, hv]
    rfl
  · change x.status.code = _
    rw [hoffers.code, hv]
    rfl
  · change x.status.snapshot = _
    rw [hoffers.snapshot, hv, hu]
    rfl
  · change WordOffered o d x
    rw [hx]
    refine wordOffered_refreshAttention ho ?_
    rw [hv, hu]
    exact hword

/-! ## The end of the command (R179) -/

theorem wordOffered_settleCommand {o : Nat} {d : List Byte} {s : State} (ho : o < 0x2400) (hne : o ≠ 0x2000)
    (h : WordOffered o d s) : WordOffered o d (settleCommand s) := by
  have hend (r : Running) : WordOffered o d (endCommand r .done 0 s) :=
    wordOffered_offerBlocks ho (wordOffered_offerWord_other _ hne h)
  unfold settleCommand
  split
  · split
    · exact hend _
    · exact h
  · exact h

/-- R178: the state in which the geometry `g` is held, `s` holding it already or none. -/
structure HoldsGeometry (g : Geometry) (m : Store Byte) (s t : State) : Prop where
  chans : t.chans = s.chans
  strands : t.strands = s.strands
  engine : t.engine = s.engine
  ms : t.ms = s.ms
  staged : t.setup.staged = m
  geometry : t.setup.geometry = some g
  queue : t.ring.queue = s.ring.queue
  taken : s.setup.geometry = none →
    t.ring.slots = freshSlots g.s ∧ t.ring.fill = .filling 0 ∧ t.ring.index = 0 ∧ WordOffered 0x2010 (zeros 8) t

/-- R175, R178: an APPLY whose geometry is held or passes its checks. -/
theorem runApply_past {tag : Byte} {mask : BitVec 16} {g : Geometry} {s : State} (hm : wfStore 0 s.setup.staged = true)
    (hg : g = s.setup.geometry.getD (stagedGeometry s.setup.staged))
    (hpass : s.setup.geometry = none → failedCheck s.setup.strap (stagedGeometry s.setup.staged) = none) :
    ∃ x, HoldsGeometry g (stagedCommand 1 tag mask s.setup.staged) s x ∧
      runApply tag 1 (commandWritten 1 tag mask s) =
        applyWith tag 1 g.w (decide (g ≠ stagedGeometry s.setup.staged)) x := by
  have hstaged : stagedGeometry (commandWritten 1 tag mask s).setup.staged = stagedGeometry s.setup.staged :=
    stagedGeometry_stagedCommand hm
  have hstrap : (commandWritten 1 tag mask s).setup.strap = s.setup.strap := rfl
  rw [runApply, commandWritten_geometry, hstaged, hstrap]
  cases hheld : s.setup.geometry with
  | some h =>
    rw [hheld, Option.getD_some] at hg
    subst hg
    refine ⟨commandWritten 1 tag mask s, ⟨rfl, rfl, rfl, rfl, rfl, hheld, rfl, fun hno => ?_⟩, ?_⟩
    · rw [hheld] at hno
      cases hno
    · rw [decide_eq_decide.mpr ne_comm]
  | none =>
    rw [hheld, Option.getD_none] at hg
    obtain ⟨w, hw⟩ : ∃ w, w = commandWritten 1 tag mask s := ⟨_, rfl⟩
    obtain ⟨z, hz⟩ : ∃ z : State, z =
        { w with
          setup := { w.setup with geometry := some g }
          ring := { w.ring with slots := freshSlots g.s, fill := .filling 0, index := 0 } } := ⟨_, rfl⟩
    obtain ⟨x, hx⟩ : ∃ x, x = offerWord ringIndexAt (zeros 8) z := ⟨_, rfl⟩
    have htake : takeGeometry g w = x := by rw [hx, hz]; rfl
    have hoffers : OffersOnly z x := hx ▸ offerWord_offersOnly ringIndexAt (zeros 8) z
    have hword : WordOffered 0x2010 (zeros 8) x := hx ▸ wordOffered_offerWord ringIndexAt (zeros 8) z
    have hzring : z.ring.slots = freshSlots g.s ∧ z.ring.fill = .filling 0 ∧ z.ring.index = 0 ∧
        z.ring.queue = s.ring.queue := by rw [hz, hw]; exact ⟨rfl, rfl, rfl, rfl⟩
    obtain ⟨hslots, hfill, hindex, hqueue⟩ := hzring
    simp only [hpass hheld]
    rw [← hg, ← hw]
    refine ⟨x, ⟨hoffers.chans.trans (by rw [hz, hw]; rfl), hoffers.strands.trans (by rw [hz, hw]; rfl),
      hoffers.engine.trans (by rw [hz, hw]; rfl), hoffers.ms.trans (by rw [hz, hw]; rfl),
      (congrArg Setup.staged hoffers.setup).trans (by rw [hz, hw]; rfl),
      (congrArg Setup.geometry hoffers.setup).trans (by rw [hz]), (congrArg Ring.queue hoffers.ring).trans hqueue,
      fun _ => ⟨(congrArg Ring.slots hoffers.ring).trans hslots, (congrArg Ring.fill hoffers.ring).trans hfill,
        (congrArg Ring.index hoffers.ring).trans hindex, hword⟩⟩, ?_⟩
    rw [htake]
    simp

/-- The command in progress of an APPLY (R174, R177). -/
def applyRunning (tag : Byte) (n : Nat) (differs : Bool) : Running :=
  { tag := tag, code := 1, isPartial := false, clamped := sat16 n, geometryHeld := differs }

theorem applyWith_eq (tag : Byte) (w : Nat) (differs : Bool) (u : State) :
    applyWith tag 1 w differs u =
      settleCommand
        (switchPart w (setCommand (.inProgress (applyRunning tag (clampedCount w u.setup.staged) differs)) u)) := rfl

theorem doneWord_applyRunning (tag : Byte) (n : Nat) (differs : Bool) :
    doneWord (applyRunning tag n differs) =
      statusWord tag 1 1 ((if n = 0 then 0 else 2) + (if differs = false then 0 else 4)) 0 (min n 65535) := by
  have hclamped : (if 1 ≤ sat16 n then (2 : Byte) else 0) = if n = 0 then 0 else 2 := by
    by_cases h : n = 0
    · rw [h]
      rfl
    · rw [if_neg h, if_pos (by rw [sat16]; omega)]
  have hheld : (if differs = true then (4 : Byte) else 0) = if differs = false then 0 else 4 := by
    cases differs <;> rfl
  have hcount : min (sat16 n) 65535 = min n 65535 := by rw [sat16]; omega
  rw [doneWord, applyRunning]
  simp only [hclamped, hheld, hcount, Bool.false_eq_true, if_false, statusWord]
  rw [show (0 + if n = 0 then (0 : Byte) else 2) = if n = 0 then 0 else 2 from BitVec.zero_add _]

/-- Settles O36: the switch, and the end of the command where no set waits. -/
theorem applyTakesTheStagedSettings : Obligations.ApplyTakesTheStagedSettings := by
  intro tag mask s ha hr hm hnone hpass
  obtain ⟨g, hg⟩ : ∃ g, g = s.setup.geometry.getD (stagedGeometry s.setup.staged) := ⟨_, rfl⟩
  obtain ⟨x, hx, hrun⟩ := runApply_past (tag := tag) (mask := mask) hm hg hpass
  obtain ⟨r, hrdef⟩ : ∃ r, r = applyRunning tag (clampedCount g.w x.setup.staged)
    (decide (g ≠ stagedGeometry s.setup.staged)) := ⟨_, rfl⟩
  obtain ⟨y, hy⟩ : ∃ y, y = setCommand (.inProgress r) x := ⟨_, rfl⟩
  have hexec : exec (.apply tag mask) s = .next (settleCommand (switchPart g.w y)) := by
    rw [exec_command rfl ha hr hm, runCommand_known (s := commandWritten 1 tag mask s) (by decide) (by decide) (.inl rfl)]
    change Host.Outcome.next (runApply tag 1 (commandWritten 1 tag mask s)) = _
    rw [hrun, applyWith_eq, ← hrdef, ← hy]
  have hswitch := switchPart_switched g.w y
  obtain ⟨v, hv⟩ : ∃ v, v = switchPart g.w y := ⟨_, rfl⟩
  rw [← hv] at hswitch hexec
  obtain ⟨k, hoffers, hstatus⟩ := settleCommand_offersOnly v
  have hystaged : y.setup.staged = stagedCommand 1 tag mask s.setup.staged := by rw [hy]; exact hx.staged
  have hvsetup : v.setup = y.setup := hswitch.setup
  have hstaged : (settleCommand v).setup.staged = y.setup.staged := by
    rw [hoffers.setup]
    change v.setup.staged = _
    rw [hvsetup]
  have hgeometry : (settleCommand v).setup.geometry = some g := by
    rw [hoffers.setup]
    change v.setup.geometry = _
    rw [hvsetup, hy]
    exact hx.geometry
  have hw : heldW (settleCommand v) = g.w := by rw [heldW, hgeometry]; rfl
  have hychan (c : Chan) : y.chan c = s.chan c := by rw [hy]; exact chan_of_chans hx.chans c
  have hchan (c : Chan) : (settleCommand v).chan c = givenSet (clampedSet g.w y.setup.staged c) (s.chan c) := by
    rw [hoffers.chan, ← hychan]
    exact hswitch.chans c
  have hring : (settleCommand v).ring =
      { x.ring with
        batchAge := (clampPart (stagedPart y.setup.staged)).batchAge
        flushOnTail := (clampPart (stagedPart y.setup.staged)).flushOnTail } := by
    rw [hoffers.ring]
    change v.ring = _
    rw [hswitch.ring, hy]
    rfl
  have hvcommand : v.setup.command = .inProgress r := by rw [hvsetup, hy]; rfl
  refine ⟨_, hexec, fun j => ?_, ?_, fun hno => ?_, fun c => ?_, fun j => ?_, ?_, ?_, ?_, ?_, ?_, ?_, ?_, ?_, ?_, ?_⟩
  · rw [hstaged, hystaged]
    split
    · next hj =>
      have hread := readStore_stagedCommand (code := 1) (tag := tag) (mask := mask) hm (i := j - 0x140) (by omega)
      rw [show commandWordAt + (j - 0x140) = j by simp only [commandWordAt]; omega] at hread
      rw [hread, List.getD_eq_getElem?_getD]
      rfl
    · next hj => exact readStore_stagedCommand_other hm (by simp only [commandWordAt]; omega)
  · rw [hgeometry, hg]
  · obtain ⟨hslots, hfill, hindex, hword⟩ := hx.taken hno
    rw [hno, Option.getD_none] at hg
    rw [hring, ← hg]
    refine ⟨hslots, hfill, hindex, wordOffered_settleCommand (by decide) (by decide) (hswitch.words (by decide) ?_)⟩
    rw [hy]
    exact hword
  · rw [hchan, hw, hstaged]
    split
    · next hstate => rw [givenSet, if_pos hstate]
    · next hstate => rw [givenSet, if_neg hstate]
  · have hj : (settleCommand v).strands.get j =
        applyStrand (clampStrand (stagedStrand y.setup.staged (strandSectionAt j.val))) (s.strands.get j) := by
      rw [hoffers.strands, ← hx.strands]
      refine (hswitch.strands j).trans ?_
      rw [hy]
      rfl
    rw [hj, hstaged]
    exact applyStrand_rest _ _
  · rw [hring, hstaged]
  · rw [hring, hstaged]
    rfl
  · rw [hring]
    exact hx.queue
  · rw [hstatus, hstaged]
    exact hswitch.maskChan
  · rw [hstatus, hstaged]
    exact hswitch.maskPart
  · rw [hstatus, hstaged]
    exact hswitch.code
  · rw [hstatus, hstaged, hswitch.snapshot, hy]
    exact congrArg (fun n => snapshotTimer n _) hx.ms
  · rw [hoffers.engine]
    refine hswitch.engine.trans ?_
    rw [hy]
    exact hx.engine
  · rintro ⟨c, hc⟩
    have hwaits : (v.chan c).waiting ≠ none := by
      rw [hswitch.chans, hychan, givenSet, if_pos hc]
      simp
    rw [settleCommand_apply_waits hvcommand (by rw [hrdef]; rfl) ⟨c, hwaits⟩]
    exact ⟨r, hvcommand, by rw [hrdef]; rfl, by rw [hrdef]; rfl⟩
  · intro hidle
    have hwaiting (c : Chan) : (v.chan c).waiting = none := by
      rw [hswitch.chans, hychan, givenSet, if_neg (hidle c)]
      exact hnone c
    obtain ⟨hready, hword⟩ := settleCommand_apply_done hvcommand (by rw [hrdef]; rfl) hwaiting
    refine ⟨hready, ?_⟩
    rw [hrdef, doneWord_applyRunning] at hword
    have hxstaged : x.setup.staged = y.setup.staged := by rw [hy]; rfl
    rw [hw, hstaged, ← hg, ← hxstaged]
    rwa [show (if decide (g ≠ stagedGeometry s.setup.staged) = false then (0 : Byte) else 4) =
      if g = stagedGeometry s.setup.staged then 0 else 4 from if_congr (by simp) rfl rfl] at hword

end Sys2Proof.Machine
end

section
/-! STAGED_WRITE (R172, R173): the bytes merged, and what a command that starts leaves of them. -/

namespace Sys2Proof.Machine

open Sys2Proof.Safety

/-! ## The staged copy after a write (R172) -/

/-- R172: the staged byte at offset `k` after a write of `beats` from offset `o` on, `old` before it. -/
def stagedByte (o k : Nat) (beats : List Beat) (old : Byte) : Byte :=
  match beats[(k - o) / 8]? with
  | none => old
  | some b =>
    if o ≤ k ∧ hostWritten k = true ∧ b.enables.getLsbD ((k - o) % 8) = true then byteOf b.data ((k - o) % 8) else old

theorem stagedByte_below {o k : Nat} (h : k < o) (beats : List Beat) (old : Byte) : stagedByte o k beats old = old := by
  unfold stagedByte
  split
  · rfl
  · rw [if_neg (by omega)]

theorem stagedByte_cons_first {o k : Nat} (hlo : o ≤ k) (hhi : k < o + 8) (b : Beat) (bs : List Beat) (old : Byte) :
    stagedByte o k (b :: bs) old =
      if o ≤ k ∧ hostWritten k = true ∧ b.enables.getLsbD (k - o) = true then byteOf b.data (k - o) else old := by
  rw [stagedByte, show (k - o) / 8 = 0 by omega, show (k - o) % 8 = k - o by omega]
  rfl

theorem stagedByte_cons_later {o k : Nat} (h : o + 8 ≤ k) (b : Beat) (bs : List Beat) (old : Byte) :
    stagedByte o k (b :: bs) old = stagedByte (o + 8) k bs old := by
  rw [stagedByte, stagedByte, show (k - o) / 8 = (k - (o + 8)) / 8 + 1 by omega, show (k - (o + 8)) % 8 = (k - o) % 8 by omega,
    List.getElem?_cons_succ]
  have hle : o ≤ k ↔ o + 8 ≤ k := by omega
  simp only [hle]

theorem readStore_stageBeats (base k : Nat) (beats : List Beat) {o : Nat} {m : Store Byte} (hm : wfStore 0 m = true)
    (hend : o + 8 * beats.length ≤ setupSize) :
    readStore 0 (stageBeats base (base + o) beats m) k = stagedByte o k beats (readStore 0 m k) := by
  induction beats generalizing o m with
  | nil => rfl
  | cons b bs ih =>
    rw [List.length_cons] at hend
    rw [stageBeats, if_pos ⟨by omega, by omega⟩, Nat.add_sub_cancel_left, show base + o + 8 = base + (o + 8) by omega,
      ih (wfStore_mergeBeat _ _ _ _ _ _ hm) (by omega), readStore_mergeBeat _ _ _ _ _ _ _ le_rfl hm]
    rcases Nat.lt_or_ge k (o + 8) with hk | hk
    · rw [stagedByte_below hk]
      rcases Nat.lt_or_ge k o with hlt | hge
      · rw [stagedByte_below hlt, if_neg (by omega)]
      · rw [stagedByte_cons_first hge hk]
        refine if_congr ⟨fun ⟨h1, _, h3, h4⟩ => ⟨hge, h4, h3⟩, fun ⟨h1, h2, h3⟩ => ⟨by omega, hk, h3, h2⟩⟩ rfl rfl
    · rw [stagedByte_cons_later hk, if_neg (by omega)]

/-! ## What commands leave of the staged copy -/

theorem endCommand_staged (r : Running) (res : CommandResult) (check : Nat) (s : State) :
    (endCommand r res check s).setup.staged = s.setup.staged := by
  rw [(endCommand_rest r res check s).setup]
  rfl

theorem settleCommand_staged (s : State) : (settleCommand s).setup.staged = s.setup.staged := by
  obtain ⟨k, hoffers, -⟩ := settleCommand_offersOnly s
  rw [hoffers.setup]
  rfl

theorem applyWith_staged (tag code : Byte) (w : Nat) (differs : Bool) (s : State) :
    (applyWith tag code w differs s).setup.staged = s.setup.staged := by
  rw [applyWith, settleCommand_staged, (switchPart_switched _ _).setup]
  rfl

theorem runApply_staged (tag code : Byte) (s : State) : (runApply tag code s).setup.staged = s.setup.staged := by
  unfold runApply
  simp only
  split
  · exact applyWith_staged _ _ _ _ s
  · split
    · exact endCommand_staged _ _ _ s
    · rw [applyWith_staged, takeGeometry, (offerWord_offersOnly _ _ _).setup]

theorem runChannels_staged (tag code : Byte) (mask : BitVec 16) (k : ChanCommand) (s : State) :
    (runChannels tag code mask k s).setup.staged = s.setup.staged := by
  obtain ⟨u, hu⟩ : ∃ u : State, u = { setCommand (.inProgress (newRunning tag code)) s with freeCount := s.freeCount + 1 } :=
    ⟨_, rfl⟩
  have hdelivered : Delivered k u (deliveryOrder s.freeCount mask) ((deliveryOrder s.freeCount mask).foldl (deliverTo k) u) :=
    foldl_reached (nodup_deliveryOrder _ _) (delivered_nothing k u) fun _ _ _ _ hc h => h.step hc
  have hrun : runChannels tag code mask k s = settleCommand ((deliveryOrder s.freeCount mask).foldl (deliverTo k) u) := by
    rw [hu]
    rfl
  rw [hrun, settleCommand_staged, hdelivered.setup, hu]
  rfl

theorem runMasked_staged (tag code : Byte) (mask : BitVec 16) (k : ChanCommand) (s : State) :
    (runMasked tag code mask k s).setup.staged = s.setup.staged := by
  unfold runMasked
  split
  · exact endCommand_staged _ _ _ s
  · exact runChannels_staged tag code mask k s

theorem runFlush_staged (tag code : Byte) (s : State) : (runFlush tag code s).setup.staged = s.setup.staged := by
  obtain ⟨f, hf⟩ := requestFlush_modRing s
  rw [runFlush, endCommand_staged, hf]
  rfl

theorem runResetPart_staged (tag code : Byte) (s : State) : (runResetPart tag code s).setup.staged = s.setup.staged := by
  unfold runResetPart
  simp only
  split
  · rw [resetSecondPart_setup]
    rfl
  · rfl

theorem runKnown_staged (tag code : Byte) (mask : BitVec 16) (s : State) :
    (runKnown tag code mask s).setup.staged = s.setup.staged := by
  unfold runKnown
  split
  · exact runApply_staged tag code s
  · exact runMasked_staged tag code mask _ s
  · exact runMasked_staged tag code mask _ s
  · exact runMasked_staged tag code mask _ s
  · exact runMasked_staged tag code mask _ s
  · exact runMasked_staged tag code mask _ s
  · exact runFlush_staged tag code s
  · exact runResetPart_staged tag code s
  · rfl

theorem runCommand_staged (tag code : Byte) (mask : BitVec 16) (s : State) :
    (runCommand tag code mask s).setup.staged = s.setup.staged := by
  unfold runCommand
  split
  · exact endCommand_staged _ _ _ s
  · split
    · exact endCommand_staged _ _ _ s
    · exact runKnown_staged tag code mask s

theorem startCommand_staged (s : State) : (startCommand s).setup.staged = s.setup.staged := by
  unfold startCommand
  simp only
  split
  · exact runCommand_staged _ _ _ s
  · exact congrArg Setup.staged (offerWord_offersOnly _ _ _).setup

/-! ## The write (R159, R160, R172) -/

/-- R160: line capture takes nothing of a write to the setup block. -/
theorem takeBeats_setup {id o i : Nat} {beats : List Beat} (x : Acceptance)
    (hend : o + 8 * (i + beats.length) ≤ setupSize) :
    takeBeats id (setupBase x.st.setup.strap + o) i beats x = x := by
  induction beats generalizing i with
  | nil => rfl
  | cons b bs ih =>
    rw [List.length_cons] at hend
    have hregion : regionOf x.st (setupBase x.st.setup.strap + o + 8 * i) = .setup (o + 8 * i) := by
      rw [regionOf, if_pos ⟨by omega, by omega⟩, Nat.add_assoc, Nat.add_sub_cancel_left]
    rw [takeBeats, takeBeat, hregion]
    exact ih (by omega)

theorem captureWrite_setup {id o : Nat} {beats : List Beat} {s : State} (hend : o + 8 * beats.length ≤ setupSize) :
    captureWrite id (setupBase s.setup.strap + o) beats s = { st := s, rewrites := [], isHeld := false, strays := [] } := by
  have hnothing := takeBeats_setup (id := id) (o := o) (i := 0) (beats := beats)
    { st := s, rewrites := [], isHeld := false, strays := [] } (by omega)
  rw [captureWrite, hnothing]
  rfl

theorem startsCommand_eq_false {base o : Nat} {beats : List Beat}
    (h : ∀ (i : Nat) (b : Beat), beats[i]? = some b → o + 8 * i = 0x140 → b.enables.getLsbD 7 = false) :
    startsCommand base (base + o) beats = false := by
  induction beats generalizing o with
  | nil => rfl
  | cons b bs ih =>
    rw [startsCommand, Nat.add_assoc, ih fun i x hx ho => h (i + 1) x (by simpa using hx) (by omega), Bool.or_false,
      Bool.and_eq_false_iff, decide_eq_false_iff_not]
    by_cases ho : o = 0x140
    · exact .inr (h 0 b rfl (by omega))
    · exact .inl (by simp only [commandWordAt]; omega)

/-- R159, R172: the state after a write to the setup block, before a command of it starts. -/
def setupWritten (o : Nat) (beats : List Beat) (s : State) : State :=
  { s with
    setup := { s.setup with staged := stageBeats (setupBase s.setup.strap) (setupBase s.setup.strap + o) beats s.setup.staged }
    path := { s.path with
      nextId := s.path.nextId + 1
      list := s.path.list ++
        [{ id := s.path.nextId, addr := setupBase s.setup.strap + o, body := .write beats, held := false
           watch := watchNow s }] } }

theorem presentTxn_setup {o : Nat} {beats : List Beat} {s : State} (ha : Accepting s)
    (hend : o + 8 * beats.length ≤ setupSize) :
    presentTxn (setupBase s.setup.strap + o) (.write beats) s =
      if startsCommand (setupBase s.setup.strap) (setupBase s.setup.strap + o) beats = true then
        startCommand (settleCommand (setupWritten o beats s))
      else settleCommand (setupWritten o beats s) := by
  rw [presentTxn_accepted _ _ ha, ← modPath_setup s fun p => { p with nextId := p.nextId + 1 }]
  simp only [acceptWrite, captureWrite_setup hend]
  rfl

/-- Settles O22: the bytes merged, and the write of no command. -/
theorem stagedWriteMergesTheHostWrittenBytes : Obligations.StagedWriteMergesTheHostWrittenBytes := by
  intro offset beats s ha hm halign hlen hmax hend
  have hpresent := presentTxn_setup ha hend
  have hexec : exec (.stagedWrite offset beats) s =
      .next (presentTxn (setupBase s.setup.strap + offset.toNat) (.write beats) s) := by
    change presentWrite _ _ _ = _
    rw [presentWrite, if_pos ⟨by rw [setupBase]; omega, hlen, hmax⟩]
  have hstaged : (presentTxn (setupBase s.setup.strap + offset.toNat) (.write beats) s).setup.staged =
      (setupWritten offset.toNat beats s).setup.staged := by
    rw [hpresent]
    split
    · rw [startCommand_staged, settleCommand_staged]
    · rw [settleCommand_staged]
  refine ⟨_, hexec, fun k => ?_, fun hready hno => ?_⟩
  · rw [hstaged]
    exact readStore_stageBeats _ k beats hm hend
  · rw [hstaged, hpresent, startsCommand_eq_false hno, if_neg (by simp),
      settleCommand_ready (s := setupWritten offset.toNat beats s) hready, setupWritten, watchNow_eq]
    obtain ⟨hline, -⟩ := ha
    rw [hline]
    rfl

end Sys2Proof.Machine
end

section
/-! PROOF. Two states that differ only in the memory path, in the held trailers and in what they have counted: what line capture
and the channel unit make of the one they make of the other. Neither reads what may differ. -/

namespace Sys2Proof.Machine

/-! ## What may differ -/

/-- An update of a channel's counters that takes no other counter from MALFORMED. -/
def MalformedApart (f : ChanCounters → ChanCounters) : Prop :=
  ∀ k n, ∃ m, f { k with malformed := n } = { f k with malformed := m }

/-- What may differ between two states alike: their memory paths, their held trailers and their counters, each by a relation that
what line capture and the channel unit do to them keeps. A held trailer's beat is told `shift` later in the second. -/
structure Veil where
  path : Path → Path → Prop
  held : Chan → List HeldTrailer → List HeldTrailer → Prop
  counters : ChanCounters → ChanCounters → Prop
  shift : Nat
  strict : Prop
  offers : ∀ a d p q, path p q → path (offerWordTo a d p) (offerWordTo a d q)
  counts : ∀ f, MalformedApart f → ∀ k l, counters k l → counters (f k) (f l)
  holds : ∀ c h x k, held c h x → held c (h ++ [k]) (x ++ [{ k with beat := shift + k.beat }])

/-- `t` is `s` but for what the veil lets differ. -/
structure Alike (v : Veil) (s t : State) : Prop where
  path : v.path s.path t.path
  chan : ∀ c, ∃ x, t.chan c = { s.chan c with held := x } ∧ v.held c (s.chan c).held x
  counters : ∀ c, v.counters (s.status.counters.get c) (t.status.counters.get c)
  status : t.status = { s.status with counters := t.status.counters }
  rest : t = { s with path := t.path, chans := t.chans, status := t.status }

namespace Alike

variable {v : Veil} {s t : State}

/-! ## What does not differ -/

theorem capture (h : Alike v s t) (c : Chan) : (t.chan c).capture = (s.chan c).capture := by
  obtain ⟨x, hx, -⟩ := h.chan c
  rw [hx]

theorem record (h : Alike v s t) (c : Chan) : (t.chan c).record = (s.chan c).record := by
  obtain ⟨x, hx, -⟩ := h.chan c
  rw [hx]

theorem band (h : Alike v s t) (c : Chan) : (t.chan c).band = (s.chan c).band := by
  obtain ⟨x, hx, -⟩ := h.chan c
  rw [hx]

theorem tracks (h : Alike v s t) (c : Chan) : (t.chan c).tracks = (s.chan c).tracks := by
  obtain ⟨x, hx, -⟩ := h.chan c
  rw [hx]

theorem params (h : Alike v s t) (c : Chan) : (t.chan c).params = (s.chan c).params := by
  obtain ⟨x, hx, -⟩ := h.chan c
  rw [hx]

theorem waiting (h : Alike v s t) (c : Chan) : (t.chan c).waiting = (s.chan c).waiting := by
  obtain ⟨x, hx, -⟩ := h.chan c
  rw [hx]

theorem setup (h : Alike v s t) : t.setup = s.setup := (congrArg State.setup h.rest :)

theorem ring (h : Alike v s t) : t.ring = s.ring := (congrArg State.ring h.rest :)

theorem strands (h : Alike v s t) : t.strands = s.strands := (congrArg State.strands h.rest :)

theorem unrouted (h : Alike v s t) : t.unrouted = s.unrouted := (congrArg State.unrouted h.rest :)

theorem engine (h : Alike v s t) : t.engine = s.engine := (congrArg State.engine h.rest :)

theorem ms (h : Alike v s t) : t.ms = s.ms := (congrArg State.ms h.rest :)

theorem us (h : Alike v s t) : t.us = s.us := (congrArg State.us h.rest :)

theorem mfIn (h : Alike v s t) : t.mfIn = s.mfIn := (congrArg State.mfIn h.rest :)

theorem heldW (h : Alike v s t) : heldW t = heldW s := by unfold Machine.heldW; rw [h.setup]

theorem billetOpen (h : Alike v s t) (c : Chan) : billetOpen t c = billetOpen s c := by
  unfold Machine.billetOpen; rw [h.record]

theorem watches (h : Alike v s t) (c : Chan) : watches t c = watches s c := by
  unfold Machine.watches; rw [h.record]

theorem replays (h : Alike v s t) (c : Chan) : replays t c = replays s c := by
  unfold Machine.replays; rw [h.watches, h.record]

theorem livesOn (h : Alike v s t) (c : Chan) : livesOn t c = livesOn s c := by
  unfold Machine.livesOn; rw [h.watches, h.record]

theorem condWord (h : Alike v s t) (o : Owner) : condWordOf t.status o = condWordOf s.status o := by
  rw [h.status]; cases o <;> rfl

/-! ## The updates -/

theorem modChan (h : Alike v s t) (c : Chan) (f g : Channel → Channel)
    (hf : ∀ x, v.held c (s.chan c).held x → t.chan c = { s.chan c with held := x } →
      ∃ y, g (t.chan c) = { f (s.chan c) with held := y } ∧ v.held c (f (s.chan c)).held y) :
    Alike v (modChan c f s) (modChan c g t) where
  path := h.path
  chan d := by
    by_cases hd : d = c
    · subst hd
      rw [chan_modChan_same, chan_modChan_same]
      obtain ⟨x, hx, hh⟩ := h.chan d
      exact hf x hh hx
    · rw [chan_modChan_other _ _ hd, chan_modChan_other _ _ hd]
      exact h.chan d
  counters := h.counters
  status := h.status
  rest := by
    conv_lhs => unfold Machine.modChan setChan; rw [h.rest]
    rfl

/-- An update of a channel that neither reads nor writes its held trailers. -/
theorem modChan_apart (h : Alike v s t) (c : Chan) (f g : Channel → Channel)
    (hf : ∀ x, g { s.chan c with held := x } = { f (s.chan c) with held := x })
    (hh : (f (s.chan c)).held = (s.chan c).held) : Alike v (Machine.modChan c f s) (Machine.modChan c g t) :=
  h.modChan c f g fun x hx ht => ⟨x, by rw [ht, hf], by rw [hh]; exact hx⟩

theorem modCapture (h : Alike v s t) (c : Chan) (f : Capture → Capture) :
    Alike v (modCapture c f s) (modCapture c f t) :=
  h.modChan_apart c _ _ (fun _ => rfl) rfl

theorem modRecord (h : Alike v s t) (c : Chan) (f : ChanRecord → ChanRecord) :
    Alike v (modRecord c f s) (modRecord c f t) :=
  h.modChan_apart c _ _ (fun _ => rfl) rfl

theorem modBand (h : Alike v s t) (c : Chan) (f : Band → Band) : Alike v (modBand c f s) (modBand c f t) :=
  h.modChan_apart c _ _ (fun _ => rfl) rfl

theorem modTallies (h : Alike v s t) (c : Chan) (f : Tallies → Tallies) :
    Alike v (modTallies c f s) (modTallies c f t) :=
  h.modRecord c _

theorem modRing (h : Alike v s t) (f : Ring → Ring) : Alike v (modRing f s) (modRing f t) where
  path := h.path
  chan := h.chan
  counters := h.counters
  status := h.status
  rest := by
    conv_lhs => unfold Machine.modRing; rw [h.rest]
    rfl

theorem modStrand (h : Alike v s t) (k : Strand) (f : StrandState → StrandState) :
    Alike v (modStrand k f s) (modStrand k f t) where
  path := h.path
  chan := h.chan
  counters := h.counters
  status := h.status
  rest := by
    conv_lhs => unfold Machine.modStrand; rw [h.rest]
    rfl

theorem setUnrouted (h : Alike v s t) (u : Option Nat) : Alike v { s with unrouted := u } { t with unrouted := u } where
  path := h.path
  chan := h.chan
  counters := h.counters
  status := h.status
  rest := by
    conv_lhs => rw [h.rest]

/-- An update of the status unit that neither reads nor writes the channels' counters. -/
theorem modStatus (h : Alike v s t) (f : Status → Status)
    (hf : ∀ k, f { s.status with counters := k } = { f s.status with counters := k })
    (hk : (f s.status).counters = s.status.counters) : Alike v (modStatus f s) (modStatus f t) := by
  have hft : f t.status = { f s.status with counters := t.status.counters } := by
    conv_lhs => rw [h.status]
    exact hf _
  refine ⟨h.path, h.chan, fun c => ?_, ?_, ?_⟩
  · rw [modStatus_status, modStatus_status, hk, hft]
    exact h.counters c
  · rw [modStatus_status, modStatus_status, hft]
  · conv_lhs => unfold Machine.modStatus; rw [h.rest]
    rfl

theorem modCounters (h : Alike v s t) (c : Chan) (f : ChanCounters → ChanCounters) (hf : MalformedApart f) :
    Alike v (modCounters c f s) (modCounters c f t) where
  path := h.path
  chan := h.chan
  counters d := by
    unfold Machine.modCounters
    rw [modStatus_status, modStatus_status]
    by_cases hd : d = c
    · subst hd
      rw [Bank16.get_set_same, Bank16.get_set_same]
      exact v.counts f hf _ _ (h.counters d)
    · rw [Bank16.get_set_other _ _ hd, Bank16.get_set_other _ _ hd]
      exact h.counters d
  status := by
    unfold Machine.modCounters
    rw [modStatus_status, modStatus_status]
    conv_lhs => rw [h.status]
  rest := by
    conv_lhs => unfold Machine.modCounters Machine.modStatus; rw [h.rest]
    rfl

theorem modPartCounters (h : Alike v s t) (f : PartCounters → PartCounters) :
    Alike v (modPartCounters f s) (modPartCounters f t) :=
  h.modStatus _ (fun _ => rfl) rfl

theorem modPath (h : Alike v s t) (f g : Path → Path) (hf : v.path (f s.path) (g t.path)) :
    Alike v (modPath f s) (modPath g t) where
  path := hf
  chan := h.chan
  counters := h.counters
  status := h.status
  rest := by
    conv_lhs => unfold Machine.modPath; rw [h.rest]
    rfl

theorem offerWord (h : Alike v s t) (o : Nat) (d : List Byte) : Alike v (offerWord o d s) (offerWord o d t) := by
  unfold Machine.offerWord
  rw [h.setup]
  exact h.modPath _ _ (v.offers _ _ _ _ h.path)

end Alike

end Sys2Proof.Machine
end

section
/-! PROOF. The shared operations and the channel unit keep two states alike. -/

namespace Sys2Proof.Machine

namespace Alike

variable {v : Veil} {s t : State}

/-! ## Conditions, records, flushes and marks -/

theorem attentionOf (h : Alike v s t) : attentionOf t.status = attentionOf s.status := by
  rw [h.status]
  unfold Machine.attentionOf
  refine congrArg (fun l : List Nat => BitVec.ofNat 17 l.sum) (List.map_congr_left fun o _ => ?_)
  cases o <;> rfl

theorem summary (h : Alike v s t) : t.status.summary = s.status.summary := (congrArg Status.summary h.status :)

theorem refreshAttention (h : Alike v s t) : Alike v (refreshAttention s) (refreshAttention t) := by
  unfold Machine.refreshAttention
  rw [h.attentionOf, h.summary]
  by_cases hs : Machine.attentionOf s.status = s.status.summary
  · rw [if_pos hs, if_pos hs]; exact h
  · rw [if_neg hs, if_neg hs]
    exact (h.modStatus _ (fun _ => rfl) rfl).offerWord _ _

theorem setLatched (h : Alike v s t) (o : Owner) (w : BitVec 16) : Alike v (setLatched o w s) (setLatched o w t) := by
  unfold Machine.setLatched
  rw [h.condWord]
  by_cases hs : w = (condWordOf s.status o).latched
  · rw [if_pos hs, if_pos hs]; exact h
  · rw [if_neg hs, if_neg hs]
    exact ((h.modStatus _ (fun _ => by cases o <;> rfl) (by cases o <;> rfl)).offerWord _ _).refreshAttention

theorem latchChan (h : Alike v s t) (c : Chan) (k : ChanCond) : Alike v (latchChan c k s) (latchChan c k t) := by
  unfold Machine.latchChan latchBit
  rw [h.condWord]
  exact h.setLatched _ _

theorem latchPart (h : Alike v s t) (k : PartCond) : Alike v (latchPart k s) (latchPart k t) := by
  unfold Machine.latchPart latchBit
  rw [h.condWord]
  exact h.setLatched _ _

theorem produce (h : Alike v s t) (r : Record) : Alike v (produce r s) (produce r t) := by
  unfold Machine.produce
  rw [h.ring, h.ms]
  by_cases hs : s.ring.queue.length < 64
  · rw [if_pos hs, if_pos hs]; exact h.modRing _
  · rw [if_neg hs, if_neg hs]
    exact ((h.modPartCounters _).latchPart _).modRing _

theorem requestFlush (h : Alike v s t) : Alike v (requestFlush s) (requestFlush t) := by
  unfold Machine.requestFlush requestFlushOn heldB
  rw [h.ring, h.setup]
  split
  · exact h
  · split
    · exact h.modRing _
    · exact h

theorem requestMark (h : Alike v s t) (c : Chan) (n : Word32) : Alike v (requestMark c n s) (requestMark c n t) := by
  unfold Machine.requestMark
  rw [h.strands, h.ms]
  cases markAnswer (s.strands.get (strandOf c)) n with
  | late => exact (h.modPartCounters _).latchPart _
  | dropped => exact (h.modPartCounters _).latchPart _
  | scheduled => exact h.modStrand _ _
  | merged => exact h
  | none => exact h
  | suppressed => exact h

/-! ## The classifier -/

theorem takeSerial (h : Alike v s t) (c : Chan) : Alike v (takeSerial c s) (takeSerial c t) := h.modRecord c _

theorem requestFor (h : Alike v s t) (c : Chan) (set : ParamSet) (e : Profile) (k : Closure) :
    Alike v (requestFor c set e k s) (requestFor c set e k t) := by
  unfold Machine.requestFor
  rw [h.record]
  cases e.mark with
  | false => exact h
  | true =>
    cases (s.chan c).record.mode with
    | live => exact h.requestMark c _
    | replay => exact h

theorem closureMark (h : Alike v s t) (c : Chan) (set : ParamSet) (e : Profile) (k : Closure) :
    closureMark c set e k t = closureMark c set e k s := by
  unfold Machine.closureMark
  rw [h.record, h.strands]

theorem emitDefect (h : Alike v s t) (c : Chan) (set : ParamSet) (e : Profile) (k : Closure) :
    Alike v (emitDefect c set e k s) (emitDefect c set e k t) := by
  have hu := h.takeSerial c
  unfold Machine.emitDefect defectOf
  simp only
  rw [hu.closureMark, hu.record, hu.heldW, hu.ms]
  exact (hu.requestFor c set e k).produce _

theorem belowClass (h : Alike v s t) (c : Chan) : Alike v (belowClass c s) (belowClass c t) :=
  (h.modCounters c _ fun _ n => ⟨n, rfl⟩).modTallies c _

theorem classify (h : Alike v s t) (c : Chan) (set : ParamSet) (k : Closure) :
    Alike v (classify c set k s) (classify c set k t) := by
  unfold Machine.classify
  rw [h.heldW]
  cases matchingEntry (Machine.heldW s) set k with
  | some e => exact h.emitDefect c set e k
  | none => exact h.belowClass c

theorem classifyTracks (c : Chan) (set : ParamSet) (cause : Cause) (ts : List Track) {s t : State} (h : Alike v s t) :
    Alike v (classifyTracks c set cause ts s) (classifyTracks c set cause ts t) := by
  unfold Machine.classifyTracks
  induction ts generalizing s t with
  | nil => exact h
  | cons x xs ih => exact ih (h.classify c set _)

theorem closeTracks (h : Alike v s t) (c : Chan) (cause : Cause) :
    Alike v (closeTracks c cause s) (closeTracks c cause t) := by
  unfold Machine.closeTracks setTracks
  rw [h.params, h.tracks]
  exact classifyTracks c _ _ _ (h.modChan_apart c _ _ (fun _ => rfl) rfl)

/-! ## The band tracker -/

theorem recomputePitch (h : Alike v s t) (c : Chan) : Alike v (recomputePitch c s) (recomputePitch c t) :=
  h.modChan_apart c _ _ (fun _ => rfl) rfl

theorem testEpisode (h : Alike v s t) (c : Chan) (set : ParamSet) (e : Episode) (cause : Cause) :
    Alike v (testEpisode c set e cause s) (testEpisode c set e cause t) := by
  unfold Machine.testEpisode
  simp only [h.band]
  cases (s.chan c).band.prevCentre with
  | none => exact (h.modBand c _).modTallies c _
  | some prev =>
    simp only
    split
    · exact ((h.modBand c _).recomputePitch c).modTallies c _
    · exact (h.modTallies c _).classify c set _

theorem closeEpisode (h : Alike v s t) (c : Chan) (set : ParamSet) (cause : Cause) :
    Alike v (closeEpisode c set cause s) (closeEpisode c set cause t) := by
  unfold Machine.closeEpisode dropEpisode
  simp only [h.band]
  cases (s.chan c).band.episode.state with
  | absent => exact h
  | isOpen => exact (h.modBand c _).testEpisode c set _ _
  | ending => exact (h.modBand c _).testEpisode c set _ _

/-! ## The channel unit -/

theorem switchInspecting (h : Alike v s t) (c : Chan) : Alike v (switchInspecting c s) (switchInspecting c t) := by
  unfold Machine.switchInspecting switchParams
  rw [h.record, h.waiting]
  cases (s.chan c).record.state with
  | inspecting =>
    cases (s.chan c).waiting with
    | none => exact h
    | some p =>
      exact (h.modChan_apart c (fun ch => { ch with params := p, waiting := none }) _ (fun _ => rfl) rfl).recomputePitch c
  | off => exact h
  | waiting => exact h
  | stalled => exact h
  | passOnly => exact h

theorem endBillet (h : Alike v s t) (c : Chan) (cause : Cause) (ending : BilletEnd) :
    Alike v (endBillet c cause ending s) (endBillet c cause ending t) := by
  have hu := h.closeTracks c cause
  have hw := hu.closeEpisode c ((Machine.closeTracks c cause s).chan c).params cause
  unfold Machine.endBillet closeAll billetRecord
  simp only
  rw [hu.params, hw.record, hw.params, hw.band, hw.ms]
  exact hw.produce _

theorem billetTail (h : Alike v s t) (c : Chan) : Alike v (billetTail c s) (billetTail c t) := by
  have hu := (h.modRecord c (settleRecord .waiting)).endBillet c .tail .tail
  unfold Machine.billetTail
  simp only
  rw [hu.ring]
  split
  · exact hu.requestFlush
  · exact hu

theorem billetHead (h : Alike v s t) (c : Chan) (e : Fin 2) : Alike v (billetHead c e s) (billetHead c e t) := by
  unfold Machine.billetHead
  rw [h.ms]
  exact h.modChan_apart c _ _ (fun _ => rfl) rfl

theorem goBlind (h : Alike v s t) (c : Chan) : Alike v (goBlind c s) (goBlind c t) := by
  have hu := h.closeTracks c .blind
  unfold Machine.goBlind blindEpisode
  rw [hu.params]
  exact ((hu.closeEpisode c _ _).modBand c _).modCapture c _

theorem blindTest (h : Alike v s t) (c : Chan) : Alike v (blindTest c s) (blindTest c t) := by
  unfold Machine.blindTest
  rw [h.billetOpen, h.params, h.capture]
  split
  · exact h.goBlind c
  · exact h

theorem addUnseen (h : Alike v s t) (c : Chan) (n : Nat) : Alike v (addUnseen c n s) (addUnseen c n t) := by
  have hu := (h.modCapture c (fun k => { k with unseenRun := sat16 (k.unseenRun + n) })).modCounters c
    (fun k => { k with unseen := sat16 (k.unseen + n) }) fun _ m => ⟨m, rfl⟩
  unfold Machine.addUnseen
  simp only
  rw [h.billetOpen]
  split
  · exact hu.modTallies c _
  · exact hu

theorem placeUnseen (h : Alike v s t) (c : Chan) : Alike v (placeUnseen c s) (placeUnseen c t) := by
  unfold Machine.placeUnseen
  rw [h.capture]
  cases (s.chan c).capture.queue.getLast? with
  | some e => exact h.modCapture c _
  | none => exact (h.addUnseen c 1).blindTest c

theorem clearRun (h : Alike v s t) (c : Chan) (k : Seen) : Alike v (clearRun c k s) (clearRun c k t) := by
  cases k with
  | examined => exact h.modCapture c fun x => { x with unseenRun := 0 }
  | unseen => exact h
  | passed => exact h

theorem retire (h : Alike v s t) (c : Chan) (e : Fin 2) (k : Seen) : Alike v (retire c e k s) (retire c e k t) := by
  unfold Machine.retire
  rw [h.capture]
  exact (((h.clearRun c k).addUnseen c _).blindTest c).modCapture c _

theorem actOnHead (h : Alike v s t) (c : Chan) (e : Fin 2) (k : LineClass) :
    Alike v (actOnHead c e k s) (actOnHead c e k t) := by
  unfold Machine.actOnHead
  rw [h.record, h.billetOpen]
  cases k with
  | toAnalyse =>
    simp only
    split
    · exact h.billetHead c e
    · exact h
  | noBillet =>
    simp only
    split
    · exact (h.switchInspecting c).billetTail c
    · exact h
  | malformed => exact h.switchInspecting c
  | lamp => exact h.switchInspecting c
  | held => exact h.switchInspecting c
  | reverse => exact h.switchInspecting c

theorem serveHead (c : Chan) (n : Nat) {s t : State} (h : Alike v s t) :
    Alike v (serveHead c n s) (serveHead c n t) := by
  induction n generalizing s t with
  | zero => exact h
  | succ n ih =>
    unfold Machine.serveHead
    rw [h.capture]
    cases (s.chan c).capture.queue.head? with
    | none => exact h
    | some e =>
      simp only
      cases (entryOf (s.chan c).capture e).cls with
      | none => exact h
      | some k =>
        cases k with
        | toAnalyse => exact h.actOnHead c e _
        | noBillet => exact ih ((h.actOnHead c e _).retire c e _)
        | malformed => exact ih ((h.actOnHead c e _).retire c e _)
        | lamp => exact ih ((h.actOnHead c e _).retire c e _)
        | held => exact ih ((h.actOnHead c e _).retire c e _)
        | reverse => exact ih ((h.actOnHead c e _).retire c e _)

theorem reportCompletion (h : Alike v s t) (c : Chan) : Alike v (reportCompletion c s) (reportCompletion c t) := by
  unfold Machine.reportCompletion
  rw [h.record, h.ms]
  cases (s.chan c).record.state with
  | inspecting => exact h.modChan_apart c _ _ (fun _ => rfl) rfl
  | stalled => exact h.modChan_apart c _ _ (fun _ => rfl) rfl
  | off => exact h
  | waiting => exact h
  | passOnly => exact h

end Alike

end Sys2Proof.Machine
end

section
/-! PROOF. Line capture makes two states alike of two alike: the beats of one write are told the same in both, but for the place of
the first of them in its transaction. -/

namespace Sys2Proof.Machine

namespace Alike

variable {v : Veil} {s t : State}

theorem resetLine (h : Alike v s t) : t.resetLine = s.resetLine := (congrArg State.resetLine h.rest :)

theorem regionOf (h : Alike v s t) (a : Nat) : regionOf t a = regionOf s a := by unfold Machine.regionOf; rw [h.setup]

theorem holdAsserted (h : Alike v s t) (k : Strand) : holdAsserted t k = holdAsserted s k := by
  unfold Machine.holdAsserted mfFunction
  rw [h.resetLine, h.mfIn, h.setup]

theorem classOf (h : Alike v s t) (c : Chan) (e : Entry) : classOf t c e = classOf s c e := by
  unfold Machine.classOf isReverse
  rw [h.heldW, h.capture, h.holdAsserted, h.billetOpen, h.record]

theorem replayOwner (h : Alike v s t) (j : Nat) : replayOwner t j = replayOwner s j := by
  unfold Machine.replayOwner
  exact congrArg (fun f => allChans.find? f) (funext fun c => by rw [h.replays, h.capture])

theorem routedChan (h : Alike v s t) (b : Beat) : routedChan t b = routedChan s b := by
  have hf : ∀ n : Nat, (fun c : Chan => decide (c.val = n) && Machine.replays t c) =
      fun c : Chan => decide (c.val = n) && Machine.replays s c := fun n => funext fun c => by rw [h.replays]
  unfold Machine.routedChan
  simp only [hf]

/-! ## Starting, merging, abandoning, skipping -/

theorem mergeLine (h : Alike v s t) (c : Chan) (i : Nat) (b : Beat) : Alike v (mergeLine c i b s) (mergeLine c i b t) := by
  unfold Machine.mergeLine
  rw [h.capture]
  cases assemblingEntry (s.chan c).capture with
  | some e => exact h.modCapture c _
  | none => exact h

theorem countMalformed (h : Alike v s t) (c : Chan) : Alike v (countMalformed c s) (countMalformed c t) :=
  (h.modCounters c _ fun _ _ => ⟨_, rfl⟩).latchChan c _

theorem abandonLine (h : Alike v s t) (c : Chan) : Alike v (abandonLine c s) (abandonLine c t) :=
  (((h.modCapture c _).countMalformed c).modCapture c _).placeUnseen c

theorem skipLine (h : Alike v s t) (c : Chan) (j : Nat) : Alike v (skipLine c j s) (skipLine c j t) :=
  ((((h.modCapture c _).modCounters c _ fun _ n => ⟨n, rfl⟩).latchChan c _).modCapture c _).placeUnseen c

theorem startLine (h : Alike v s t) (c : Chan) (j : Nat) (b : Beat) : Alike v (startLine c j b s) (startLine c j b t) := by
  unfold Machine.startLine
  rw [h.capture]
  cases claimEntry (s.chan c).capture with
  | some e => exact h.modCapture c _
  | none => exact h.skipLine c j

theorem headerBeat (h : Alike v s t) (c : Chan) (j : Nat) (b : Beat) :
    Alike v (headerBeat c j b s) (headerBeat c j b t) := by
  unfold Machine.headerBeat
  rw [h.capture]
  cases (s.chan c).capture.asm with
  | idle => exact h.startLine c j b
  | skipping k => exact h.startLine c j b
  | assembling k =>
    simp only
    split
    · exact h.mergeLine c 0 b
    · exact (h.abandonLine c).startLine c j b

theorem ownBeat (h : Alike v s t) (c : Chan) (n : Nat) (b : Beat) : Alike v (ownBeat c n b s) (ownBeat c n b t) := by
  unfold Machine.ownBeat
  rw [h.capture]
  cases (s.chan c).capture.asm with
  | idle => exact h
  | skipping k => exact h
  | assembling k => exact h.mergeLine c n b

theorem endOther (h : Alike v s t) (j : Nat) (c d : Chan) : Alike v (endOther j c s d) (endOther j c t d) := by
  unfold Machine.endOther
  rw [h.replays, h.capture]
  split
  · cases (s.chan d).capture.asm with
    | idle => exact h
    | skipping k =>
      simp only
      split
      · exact h.modCapture d _
      · exact h
    | assembling k =>
      simp only
      split
      · exact h.abandonLine d
      · exact h
  · exact h

theorem endOthers (j : Nat) (c : Chan) (ds : List Chan) {s t : State} (h : Alike v s t) :
    Alike v (ds.foldl (Machine.endOther j c) s) (ds.foldl (Machine.endOther j c) t) := by
  induction ds generalizing s t with
  | nil => exact h
  | cons d ds ih => exact ih (h.endOther j c d)

theorem clearUnrouted (h : Alike v s t) (j : Nat) : Alike v (clearUnrouted j s) (clearUnrouted j t) := by
  unfold Machine.clearUnrouted
  rw [h.unrouted]
  split
  · exact h.setUnrouted none
  · exact h

theorem replayContent (h : Alike v s t) (j n : Nat) (b : Beat) :
    Alike v (replayContent j n b s) (replayContent j n b t) := by
  unfold Machine.replayContent
  rw [h.replayOwner]
  cases Machine.replayOwner s j with
  | some c => exact h.ownBeat c n b
  | none => exact h

theorem replayHeader (h : Alike v s t) (j : Nat) (b : Beat) : Alike v (replayHeader j b s) (replayHeader j b t) := by
  unfold Machine.replayHeader
  rw [h.routedChan]
  cases Machine.routedChan s b with
  | some c => exact ((endOthers j c _ h).clearUnrouted j).headerBeat c j b
  | none => exact ((h.replayContent j 0 b).setUnrouted _).latchPart _

/-! ## Completion -/

theorem completionConditions (h : Alike v s t) (c : Chan) (k : LineClass) (gap : Nat) :
    Alike v (completionConditions c k gap s) (completionConditions c k gap t) := by
  have hu : Alike v (if k = .malformed then Machine.countMalformed c s else s)
      (if k = .malformed then Machine.countMalformed c t else t) := by
    split
    · exact h.countMalformed c
    · exact h
  unfold Machine.completionConditions
  simp only
  split
  · exact hu.latchChan c _
  · exact hu

theorem handCount (h : Alike v s t) (c : Chan) (k : LineClass) (n : Word32) :
    Alike v (handCount c k n s) (handCount c k n t) := by
  unfold Machine.handCount
  rw [h.record, h.ms]
  split
  · exact h.modStrand _ _
  · exact h

theorem completeEffects (h : Alike v s t) (c : Chan) (e : Fin 2) (k : LineClass) :
    Alike v (completeEffects c e k s) (completeEffects c e k t) := by
  unfold Machine.completeEffects enqueueEntry
  simp only
  rw [h.heldW, h.capture]
  exact ((((h.reportCompletion c).modCapture c _).completionConditions c k _).modCapture c _).handCount c k _

theorem holdTrailer (h : Alike v s t) (c : Chan) (e : Fin 2) (id i : Nat) :
    Alike v (holdTrailer c e id i s) (holdTrailer c e id (v.shift + i) t) := by
  unfold Machine.holdTrailer
  rw [h.us]
  refine h.modChan c _ _ fun x hx ht => ⟨_, ?_, v.holds c _ _ _ hx⟩
  rw [ht]

theorem serveIfAlone (h : Alike v s t) (c : Chan) (b : Bool) : Alike v (serveIfAlone c b s) (serveIfAlone c b t) := by
  unfold Machine.serveIfAlone
  split
  · exact serveHead c 3 h
  · exact h

end Alike

/-- What line capture has made of a write in two states alike: the second has the rewrites `pre` and, with `held`, a held line from
before. -/
structure AlikeTaken (v : Veil) (pre : List (Nat × Word64)) (held : Bool) (x y : Acceptance) : Prop where
  st : Alike v x.st y.st
  rewrites : y.rewrites = pre ++ x.rewrites.map fun r => (v.shift + r.1, r.2)
  isHeld : y.isHeld = (held || x.isHeld)
  strays : v.strict → y.strays = x.strays

namespace AlikeTaken

variable {v : Veil} {pre : List (Nat × Word64)} {held : Bool} {x y : Acceptance}

/-- The state changed alike, nothing else. -/
theorem withState (h : AlikeTaken v pre held x y) {s t : State} (hst : Alike v s t) :
    AlikeTaken v pre held { x with st := s } { y with st := t } :=
  ⟨hst, h.rewrites, h.isHeld, h.strays⟩

/-- The state changed alike, and a trailer beat rewritten. -/
theorem withRewrite (h : AlikeTaken v pre held x y) {s t : State} (hst : Alike v s t) (i : Nat) (w : Word64) :
    AlikeTaken v pre held { x with st := s, rewrites := x.rewrites ++ [(i, w)] }
      { y with st := t, rewrites := y.rewrites ++ [(v.shift + i, w)] } :=
  ⟨hst, by simp only [h.rewrites, List.map_append, List.map_cons, List.map_nil, List.append_assoc], h.isHeld, h.strays⟩

theorem completeLine (h : AlikeTaken v pre held x y) (c : Chan) (e : Fin 2) (id i : Nat) :
    AlikeTaken v pre held (completeLine c e id i x) (completeLine c e id (v.shift + i) y) := by
  unfold Machine.completeLine
  simp only
  rw [h.st.capture, h.st.classOf]
  have hu := h.st.completeEffects c e (classOf x.st c (entryOf (x.st.chan c).capture e))
  cases classVerdict (classOf x.st c (entryOf (x.st.chan c).capture e)) with
  | some w => exact h.withRewrite (hu.serveIfAlone c _) i _
  | none =>
    refine ⟨(hu.holdTrailer c e id i).serveIfAlone c _, h.rewrites, ?_, h.strays⟩
    simp only [Bool.or_true]

theorem ownTrailer (h : AlikeTaken v pre held x y) (c : Chan) (id i : Nat) :
    AlikeTaken v pre held (ownTrailer c id i x) (ownTrailer c id (v.shift + i) y) := by
  unfold Machine.ownTrailer
  rw [h.st.capture]
  cases (x.st.chan c).capture.asm with
  | idle => exact h
  | skipping k => exact h.withRewrite (h.st.modCapture c _) i _
  | assembling k =>
    simp only
    cases assemblingEntry (x.st.chan c).capture with
    | some e => exact h.completeLine c e id i
    | none => exact h

theorem noteStray (h : AlikeTaken v pre held x y) (c : Chan) :
    AlikeTaken v pre held (noteStray c x) (noteStray c y) := by
  have hadd : ∀ z : Acceptance, (Machine.noteStray c z).st = z.st ∧ (Machine.noteStray c z).rewrites = z.rewrites ∧
      (Machine.noteStray c z).isHeld = z.isHeld ∧
      (Machine.noteStray c z).strays = if z.strays.contains c then z.strays else z.strays ++ [c] := by
    intro z
    unfold Machine.noteStray
    split
    · exact ⟨rfl, rfl, rfl, rfl⟩
    · exact ⟨rfl, rfl, rfl, rfl⟩
  obtain ⟨hx1, hx2, hx3, hx4⟩ := hadd x
  obtain ⟨hy1, hy2, hy3, hy4⟩ := hadd y
  refine ⟨by rw [hx1, hy1]; exact h.st, by rw [hx2, hy2]; exact h.rewrites, by rw [hx3, hy3]; exact h.isHeld, fun hs => ?_⟩
  rw [hx4, hy4, h.strays hs]

theorem lineBeat (h : AlikeTaken v pre held x y) (c : Chan) (j o id i : Nat) (b : Beat) :
    AlikeTaken v pre held (lineBeat c j o id i b x) (lineBeat c j o id (v.shift + i) b y) := by
  unfold Machine.lineBeat
  rw [h.st.heldW, h.st.capture]
  cases beatKind (heldW x.st) o with
  | padding => exact h
  | trailer =>
    simp only
    split
    · exact h.ownTrailer c id i
    · exact h.noteStray c
  | content n =>
    simp only
    split
    · exact h
    · split
      · exact h.withState (h.st.headerBeat c j b)
      · split
        · exact h.withState (h.st.ownBeat c n b)
        · exact h.noteStray c

theorem replayBeat (h : AlikeTaken v pre held x y) (j o id i : Nat) (b : Beat) :
    AlikeTaken v pre held (replayBeat j o id i b x) (replayBeat j o id (v.shift + i) b y) := by
  unfold Machine.replayBeat
  rw [h.st.heldW, h.st.replayOwner, h.st.unrouted]
  cases beatKind (heldW x.st) o with
  | padding => exact h
  | trailer =>
    cases replayOwner x.st j with
    | some c => exact h.ownTrailer c id i
    | none =>
      simp only
      split
      · exact h.withRewrite (h.st.setUnrouted none) i _
      · exact h
  | content n =>
    simp only
    split
    · exact h
    · refine h.withState ?_
      split
      · exact h.st.replayHeader j b
      · exact h.st.replayContent j n b

theorem takeBeat (h : AlikeTaken v pre held x y) (id i a : Nat) (b : Beat) :
    AlikeTaken v pre held (takeBeat id i a b x) (takeBeat id (v.shift + i) a b y) := by
  unfold Machine.takeBeat
  rw [h.st.regionOf]
  cases regionOf x.st a with
  | line c j o =>
    simp only
    rw [h.st.livesOn]
    split
    · exact h.lineBeat c j o id i b
    · exact h
  | replay j o => exact h.replayBeat j o id i b
  | setup o => exact h
  | elsewhere => exact h

/-- R5: the beats of a write, from address `a + 8 × shift` in the first state and as the later beats of one from `a` in the
second. -/
theorem takeBeats (id a : Nat) (beats : List Beat) (i : Nat) {x y : Acceptance} (h : AlikeTaken v pre held x y) :
    AlikeTaken v pre held (takeBeats id (a + 8 * v.shift) i beats x) (takeBeats id a (v.shift + i) beats y) := by
  induction beats generalizing i x y with
  | nil => exact h
  | cons b bs ih =>
    have hb := h.takeBeat id i (a + 8 * v.shift + 8 * i) b
    simp only [Machine.takeBeats]
    rw [show a + 8 * (v.shift + i) = a + 8 * v.shift + 8 * i by omega]
    exact ih (i + 1) hb

end AlikeTaken

end Sys2Proof.Machine
end

section
/-! PROOF. No block reads the port of the system side or the next number of a transaction: an act does the same whatever they are. -/

namespace Sys2Proof.Machine

/-- The state with other transactions waiting at the port and another next number. -/
def withPort (ps : List PortTxn) (n : Nat) (s : State) : State := modPath (fun p => { p with port := ps, nextId := n }) s

/-- Nothing differs but the port and the next number. -/
def portVeil (ps : List PortTxn) (n : Nat) : Veil where
  path p q := q = { p with port := ps, nextId := n }
  held _ h x := x = h
  counters k l := l = k
  shift := 0
  strict := True
  offers a d p q h := by
    subst h
    unfold offerWordTo
    simp only
    split
    · rfl
    · split
      · rfl
      · rfl
  counts f _ k l h := by rw [h]
  holds c h x k hx := by rw [hx, Nat.zero_add]

variable (ps : List PortTxn) (n : Nat)

theorem alike_withPort (s : State) : Alike (portVeil ps n) s (withPort ps n s) :=
  ⟨rfl, fun c => ⟨(s.chan c).held, rfl, rfl⟩, fun _ => rfl, rfl, rfl⟩

theorem bank16_ext {α : Type} {a b : Bank16 α} (h : ∀ c, a.get c = b.get c) : a = b := by
  have hof : ∀ d : Bank16 α, Bank16.ofFn d.get = d := fun d => rfl
  rw [← hof a, ← hof b, funext h]

theorem Alike.eq_withPort {ps : List PortTxn} {n : Nat} {s t : State} (h : Alike (portVeil ps n) s t) :
    t = withPort ps n s := by
  have hpath : t.path = { s.path with port := ps, nextId := n } := h.path
  have hchans : t.chans = s.chans := by
    refine bank16_ext fun c => ?_
    obtain ⟨x, hx, hh⟩ := h.chan c
    exact hx.trans (by rw [show x = (s.chan c).held from hh]; rfl)
  have hcounters : t.status.counters = s.status.counters := bank16_ext fun c => h.counters c
  have hstatus : t.status = s.status := by rw [h.status, hcounters]
  rw [h.rest, hpath, hchans, hstatus]
  rfl

end Sys2Proof.Machine
end

section
/-! PROOF. Every act of a command does the same whatever waits at the port and whatever the next number is. -/

namespace Sys2Proof.Machine

variable (ps : List PortTxn) (n : Nat) (s : State)

/-! ## What the port is not -/

@[simp] theorem withPort_chan (c : Chan) : (withPort ps n s).chan c = s.chan c := rfl
@[simp] theorem withPort_setup : (withPort ps n s).setup = s.setup := rfl
@[simp] theorem withPort_ring : (withPort ps n s).ring = s.ring := rfl
@[simp] theorem withPort_status : (withPort ps n s).status = s.status := rfl
@[simp] theorem withPort_engine : (withPort ps n s).engine = s.engine := rfl
@[simp] theorem withPort_strands : (withPort ps n s).strands = s.strands := rfl
@[simp] theorem withPort_queue : (withPort ps n s).path.queue = s.path.queue := rfl
@[simp] theorem withPort_list : (withPort ps n s).path.list = s.path.list := rfl
@[simp] theorem withPort_ms : (withPort ps n s).ms = s.ms := rfl
@[simp] theorem withPort_freeCount : (withPort ps n s).freeCount = s.freeCount := rfl
@[simp] theorem withPort_resetLine : (withPort ps n s).resetLine = s.resetLine := rfl

@[simp] theorem modChan_withPort (c : Chan) (f : Channel → Channel) :
    modChan c f (withPort ps n s) = withPort ps n (modChan c f s) := rfl

@[simp] theorem modRecord_withPort (c : Chan) (f : ChanRecord → ChanRecord) :
    modRecord c f (withPort ps n s) = withPort ps n (modRecord c f s) := rfl

@[simp] theorem modCapture_withPort (c : Chan) (f : Capture → Capture) :
    modCapture c f (withPort ps n s) = withPort ps n (modCapture c f s) := rfl

@[simp] theorem modRing_withPort (f : Ring → Ring) : modRing f (withPort ps n s) = withPort ps n (modRing f s) := rfl

@[simp] theorem modStatus_withPort (f : Status → Status) :
    modStatus f (withPort ps n s) = withPort ps n (modStatus f s) := rfl

@[simp] theorem setCommand_withPort (k : CommandState) :
    setCommand k (withPort ps n s) = withPort ps n (setCommand k s) := rfl

@[simp] theorem clearPitchRing_withPort (c : Chan) :
    clearPitchRing c (withPort ps n s) = withPort ps n (clearPitchRing c s) := rfl

@[simp] theorem clearCounters_withPort (c : Chan) :
    clearCounters c (withPort ps n s) = withPort ps n (clearCounters c s) := rfl

@[simp] theorem removeMarks_withPort (c : Chan) :
    removeMarks c (withPort ps n s) = withPort ps n (removeMarks c s) := rfl

/-! ## Words and blocks offered -/

@[simp] theorem offerWord_withPort (o : Nat) (d : List Byte) :
    offerWord o d (withPort ps n s) = withPort ps n (offerWord o d s) :=
  ((alike_withPort ps n s).offerWord o d).eq_withPort

@[simp] theorem refreshAttention_withPort : refreshAttention (withPort ps n s) = withPort ps n (refreshAttention s) :=
  (alike_withPort ps n s).refreshAttention.eq_withPort

@[simp] theorem requestFlush_withPort : requestFlush (withPort ps n s) = withPort ps n (requestFlush s) :=
  (alike_withPort ps n s).requestFlush.eq_withPort

@[simp] theorem offerStatus_withPort (o : Nat) (d : List Byte) :
    offerStatus o d (withPort ps n s) = withPort ps n (offerStatus o d s) := by
  have hto : ∀ (a : Nat) (p : Path), offerStatusTo a d { p with port := ps, nextId := n } =
      { offerStatusTo a d p with port := ps, nextId := n } := by
    intro a p
    unfold offerStatusTo
    simp only
    split
    · rfl
    · split
      · rfl
      · rfl
  exact congrArg (fun p => { s with path := p }) (hto _ s.path)

@[simp] theorem offerChannelBlocks_withPort (cs : List Chan) :
    cs.foldl (fun u c => offerChannelBlock c u) (withPort ps n s) =
      withPort ps n (cs.foldl (fun u c => offerChannelBlock c u) s) := by
  induction cs generalizing s with
  | nil => rfl
  | cons c cs ih =>
    have hc : offerChannelBlock c (withPort ps n s) = withPort ps n (offerChannelBlock c s) := by
      unfold offerChannelBlock
      rw [withPort_chan, withPort_status, offerStatus_withPort]
    rw [List.foldl_cons, List.foldl_cons, hc, ih]

@[simp] theorem partBlock_withPort : partBlock (withPort ps n s) = partBlock s := by
  unfold partBlock
  simp only [withPort_ring, withPort_strands, withPort_status, withPort_queue, withPort_list]

@[simp] theorem endCommand_withPort (r : Running) (res : CommandResult) (check : Nat) :
    endCommand r res check (withPort ps n s) = withPort ps n (endCommand r res check s) := by
  unfold endCommand offerBlocks
  simp only [offerWord_withPort, setCommand_withPort, offerChannelBlocks_withPort, partBlock_withPort, offerStatus_withPort]

@[simp] theorem settleCommand_withPort : settleCommand (withPort ps n s) = withPort ps n (settleCommand s) := by
  have hdone : ∀ r, commandDone r (withPort ps n s) = commandDone r s := by
    intro r
    simp only [commandDone, anyWaiting, anyPending, withPort_chan]
  unfold settleCommand
  rw [withPort_setup]
  cases s.setup.command with
  | ready => rfl
  | inProgress r =>
    simp only [hdone]
    split
    · rw [endCommand_withPort]
    · rfl

/-! ## APPLY -/

@[simp] theorem giveSets_withPort (w : Nat) (cs : List Chan) :
    cs.foldl (giveSet w) (withPort ps n s) = withPort ps n (cs.foldl (giveSet w) s) := by
  induction cs generalizing s with
  | nil => rfl
  | cons c cs ih =>
    have hc : giveSet w (withPort ps n s) c = withPort ps n (giveSet w s c) := by
      unfold giveSet
      rw [withPort_chan, withPort_setup]
      cases (s.chan c).record.state <;> rfl
    rw [List.foldl_cons, List.foldl_cons, hc, ih]

@[simp] theorem giveStrands_withPort (ks : List Strand) :
    ks.foldl giveStrand (withPort ps n s) = withPort ps n (ks.foldl giveStrand s) := by
  induction ks generalizing s with
  | nil => rfl
  | cons k ks ih => exact ih (giveStrand s k)

@[simp] theorem giveStatus_withPort (p : PartSection) :
    giveStatus p (withPort ps n s) = withPort ps n (giveStatus p s) := by
  unfold giveStatus
  rw [withPort_ms, modStatus_withPort, refreshAttention_withPort]

@[simp] theorem switchPart_withPort (w : Nat) : switchPart w (withPort ps n s) = withPort ps n (switchPart w s) := by
  unfold switchPart giveRing
  simp only [withPort_setup, giveStrands_withPort, modRing_withPort, giveStatus_withPort, giveSets_withPort]

@[simp] theorem applyWith_withPort (tag code : Byte) (w : Nat) (b : Bool) :
    applyWith tag code w b (withPort ps n s) = withPort ps n (applyWith tag code w b s) := by
  unfold applyWith
  rw [withPort_setup, setCommand_withPort, switchPart_withPort, settleCommand_withPort]

@[simp] theorem refuse_withPort (tag code : Byte) (res : CommandResult) (check : Nat) :
    refuse tag code res check (withPort ps n s) = withPort ps n (refuse tag code res check s) :=
  endCommand_withPort ps n s _ _ _

@[simp] theorem takeGeometry_withPort (g : Geometry) :
    takeGeometry g (withPort ps n s) = withPort ps n (takeGeometry g s) :=
  offerWord_withPort ps n
    { s with
      setup := { s.setup with geometry := some g }
      ring := { s.ring with slots := freshSlots g.s, fill := .filling 0, index := 0 } } _ _

@[simp] theorem runApply_withPort (tag code : Byte) :
    runApply tag code (withPort ps n s) = withPort ps n (runApply tag code s) := by
  unfold runApply
  rw [withPort_setup]
  cases s.setup.geometry with
  | some h => exact applyWith_withPort ps n s _ _ _ _
  | none =>
    simp only
    cases failedCheck s.setup.strap (stagedGeometry s.setup.staged) with
    | some i => exact refuse_withPort ps n s _ _ _ _
    | none => simp only [takeGeometry_withPort, applyWith_withPort]

/-! ## Channel commands -/

@[simp] theorem dropCapture_withPort (c : Chan) : dropCapture c (withPort ps n s) = withPort ps n (dropCapture c s) := by
  have hrel : ∀ (hs : List HeldTrailer) (u : State),
      hs.foldl (fun t h => releaseTrailer c h (plainWord .aborted) t) (withPort ps n u) =
        withPort ps n (hs.foldl (fun t h => releaseTrailer c h (plainWord .aborted) t) u) := by
    intro hs
    induction hs with
    | nil => exact fun _ => rfl
    | cons h hs ih => exact fun u => ih (releaseTrailer c h (plainWord .aborted) u)
  unfold dropCapture
  rw [withPort_chan, hrel, modCapture_withPort]

theorem teardownRecords_withPort (c : Chan) :
    teardownRecords c (withPort ps n s) = withPort ps n (teardownRecords c s) := by
  have hs := alike_withPort ps n s
  unfold teardownRecords
  rw [hs.billetOpen]
  split
  · exact (hs.endBillet c _ _).eq_withPort
  · have hu := hs.closeTracks c .stopped
    unfold closeAll
    simp only
    rw [hu.params]
    exact (hu.closeEpisode c _ _).eq_withPort

@[simp] theorem teardown_withPort (c : Chan) (st : ChanState) :
    teardown c st (withPort ps n s) = withPort ps n (teardown c st s) := by
  unfold teardown
  rw [teardownRecords_withPort, dropCapture_withPort, removeMarks_withPort, modRecord_withPort]

theorem restartChannel_withPort (c : Chan) : restartChannel c (withPort ps n s) = withPort ps n (restartChannel c s) := by
  unfold restartChannel
  simp only [modChan_withPort, clearPitchRing_withPort, dropCapture_withPort, removeMarks_withPort, clearCounters_withPort,
    modRecord_withPort]

theorem takeEffect_withPort (c : Chan) (k : ChanCommand) :
    takeEffect c k (withPort ps n s) = withPort ps n (takeEffect c k s) := by
  cases k with
  | start => rfl
  | startReplay => rfl
  | stop =>
    simp only [takeEffect, stopChannel, withPort_chan]
    cases (s.chan c).record.state <;> simp only [teardown_withPort, modRecord_withPort]
  | isolate =>
    simp only [takeEffect, isolateChannel, withPort_chan]
    cases (s.chan c).record.state <;> simp only [teardown_withPort]
  | restart => exact restartChannel_withPort ps n s c

theorem markPartial_withPort : markPartial (withPort ps n s) = withPort ps n (markPartial s) := by
  unfold markPartial
  rw [withPort_setup]
  cases s.setup.command <;> rfl

theorem takeCommand_withPort (c : Chan) (k : ChanCommand) :
    takeCommand c k (withPort ps n s) = withPort ps n (takeCommand c k s) := by
  unfold takeCommand
  simp only [withPort_chan, modRecord_withPort, takeEffect_withPort, markPartial_withPort]
  split <;> rfl

@[simp] theorem deliveries_withPort (k : ChanCommand) (cs : List Chan) :
    cs.foldl (deliverTo k) (withPort ps n s) = withPort ps n (cs.foldl (deliverTo k) s) := by
  induction cs generalizing s with
  | nil => rfl
  | cons c cs ih =>
    have hc : deliverTo k (withPort ps n s) c = withPort ps n (deliverTo k s c) := by
      have hflight : inFlight (withPort ps n s) c = inFlight s c := rfl
      unfold deliverTo
      rw [hflight, takeCommand_withPort, modRecord_withPort]
      split <;> rfl
    rw [List.foldl_cons, List.foldl_cons, hc, ih]

@[simp] theorem runChannels_withPort (tag code : Byte) (mask : BitVec 16) (k : ChanCommand) :
    runChannels tag code mask k (withPort ps n s) = withPort ps n (runChannels tag code mask k s) := by
  unfold runChannels
  rw [withPort_freeCount]
  exact (congrArg settleCommand (deliveries_withPort ps n
    { setCommand (.inProgress (newRunning tag code)) s with freeCount := s.freeCount + 1 } k _)).trans
      (settleCommand_withPort ps n _)

@[simp] theorem runMasked_withPort (tag code : Byte) (mask : BitVec 16) (k : ChanCommand) :
    runMasked tag code mask k (withPort ps n s) = withPort ps n (runMasked tag code mask k s) := by
  unfold runMasked
  rw [refuse_withPort, runChannels_withPort]
  split <;> rfl

@[simp] theorem runFlush_withPort (tag code : Byte) :
    runFlush tag code (withPort ps n s) = withPort ps n (runFlush tag code s) := by
  unfold runFlush
  rw [requestFlush_withPort, endCommand_withPort]

/-! ## RESET_PART -/

theorem resetSets_withPort (os : List Owner) : os.foldl resetSet (withPort ps n s) = withPort ps n (os.foldl resetSet s) := by
  induction os generalizing s with
  | nil => rfl
  | cons o os ih =>
    have ho : resetSet (withPort ps n s) o = withPort ps n (resetSet s o) := by
      have hlatched : resetLatched (withPort ps n s) o = resetLatched s o := by cases o <;> rfl
      unfold resetSet
      rw [hlatched, withPort_status, modStatus_withPort, offerWord_withPort]
      split <;> rfl
    rw [List.foldl_cons, List.foldl_cons, ho, ih]

theorem resetStatus_withPort : resetStatus (withPort ps n s) = withPort ps n (resetStatus s) := by
  unfold resetStatus
  rw [modStatus_withPort, resetSets_withPort, refreshAttention_withPort]

theorem dropCaptures_withPort (cs : List Chan) :
    cs.foldl (fun t c => dropCapture c t) (withPort ps n s) = withPort ps n (cs.foldl (fun t c => dropCapture c t) s) := by
  induction cs generalizing s with
  | nil => rfl
  | cons c cs ih => rw [List.foldl_cons, List.foldl_cons, dropCapture_withPort, ih]

theorem resetSecondPart_withPort : resetSecondPart (withPort ps n s) = withPort ps n (resetSecondPart s) := by
  have hblocks : ∀ u : State, resetBlocks (withPort ps n u) = withPort ps n (resetBlocks u) := fun u => rfl
  unfold resetSecondPart
  rw [dropCaptures_withPort, hblocks, resetStatus_withPort, modRing_withPort]

@[simp] theorem runResetPart_withPort (tag code : Byte) :
    runResetPart tag code (withPort ps n s) = withPort ps n (runResetPart tag code s) := by
  unfold runResetPart
  rw [withPort_engine, setCommand_withPort]
  cases s.engine.analysis with
  | none => exact resetSecondPart_withPort ps n _
  | some a => rfl

/-! ## A command started, and a transaction accepted -/

theorem runKnown_withPort (tag code : Byte) (mask : BitVec 16) :
    runKnown tag code mask (withPort ps n s) = withPort ps n (runKnown tag code mask s) := by
  unfold runKnown
  split <;> simp only [runApply_withPort, runMasked_withPort, runFlush_withPort, runResetPart_withPort]

theorem runCommand_withPort (tag code : Byte) (mask : BitVec 16) :
    runCommand tag code mask (withPort ps n s) = withPort ps n (runCommand tag code mask s) := by
  unfold runCommand
  rw [withPort_setup, refuse_withPort, refuse_withPort, runKnown_withPort]
  split
  · rfl
  · split <;> rfl

theorem startCommand_withPort : startCommand (withPort ps n s) = withPort ps n (startCommand s) := by
  unfold startCommand refuseBusy
  rw [withPort_setup]
  cases s.setup.command with
  | ready => exact runCommand_withPort ps n s _ _ _
  | inProgress r => exact offerWord_withPort ps n s _ _

end Sys2Proof.Machine
end

section
/-! A grant to the system side (R159, R162, R167), and the transaction waiting at the port that it lets in. -/

namespace Sys2Proof.Machine

open Sys2Proof.Safety

/-! ## A transaction accepted while others wait -/

theorem AlikeTaken.strayCounts {v : Veil} {pre : List (Nat × Word64)} {held : Bool} {x y : Acceptance}
    (h : AlikeTaken v pre held x y) (hv : v.strict) :
    Alike v (x.strays.foldl countStray x.st) (y.strays.foldl countStray y.st) := by
  have hfold : ∀ (cs : List Chan) (s t : State), Alike v s t → Alike v (cs.foldl countStray s) (cs.foldl countStray t) := by
    intro cs
    induction cs with
    | nil => exact fun _ _ h => h
    | cons c cs ih => exact fun s t h => ih _ _ (h.modCounters c _ fun _ _ => ⟨_, rfl⟩)
  rw [h.strays hv]
  exact hfold _ _ _ h.st

theorem captureWrite_withPort (ps : List PortTxn) (n id a : Nat) (beats : List Beat) (s : State) :
    captureWrite id a beats (withPort ps n s) =
      { captureWrite id a beats s with st := withPort ps n (captureWrite id a beats s).st } := by
  have h := AlikeTaken.takeBeats id a beats 0
    (x := { st := s, rewrites := [], isHeld := false, strays := [] })
    (y := { st := withPort ps n s, rewrites := [], isHeld := false, strays := [] }) (v := portVeil ps n) (pre := []) (held := false)
    ⟨alike_withPort ps n s, rfl, rfl, fun _ => rfl⟩
  have hst := (h.strayCounts trivial).eq_withPort
  unfold captureWrite
  simp only
  generalize hx : takeBeats id (a + 8 * (portVeil ps n).shift) 0 beats _ = x at h hst
  generalize hy : takeBeats id a ((portVeil ps n).shift + 0) beats _ = y at h hst
  rw [show takeBeats id a 0 beats { st := s, rewrites := [], isHeld := false, strays := [] } = x from hx,
    show takeBeats id a 0 beats { st := withPort ps n s, rewrites := [], isHeld := false, strays := [] } = y from hy, hst]
  have hre : y.rewrites = x.rewrites := by
    rw [h.rewrites, List.nil_append]
    exact (List.map_congr_left fun r _ => by rw [show (portVeil ps n).shift = 0 from rfl, Nat.zero_add]).trans (List.map_id' _)
  rw [hre, h.isHeld, Bool.false_or, h.strays trivial]

theorem acceptWrite_withPort (ps : List PortTxn) (n id a : Nat) (beats : List Beat) (s : State) :
    acceptWrite id a beats (withPort ps n s) = withPort ps n (acceptWrite id a beats s) := by
  have hlist : ∀ (x : SysTxn) (u : State), listTxn x (withPort ps n u) = withPort ps n (listTxn x u) := fun _ _ => rfl
  have hstage : ∀ u : State, stageWrite a beats (withPort ps n u) = withPort ps n (stageWrite a beats u) := fun _ => rfl
  have hwatch : watchNow (withPort ps n s) = watchNow s := rfl
  unfold acceptWrite
  simp only [captureWrite_withPort, hstage, hwatch, hlist, settleCommand_withPort, withPort_setup, startCommand_withPort]
  split <;> rfl

theorem acceptTxn_withPort (ps : List PortTxn) (n : Nat) (p : PortTxn) (s : State) :
    acceptTxn p (withPort ps n s) = withPort ps n (acceptTxn p s) := by
  unfold acceptTxn
  cases p.body with
  | read m => rfl
  | write beats =>
    simp only [withPort_resetLine, acceptWrite_withPort]
    split <;> rfl

theorem withPort_withPort (ps qs : List PortTxn) (m n : Nat) (s : State) :
    withPort ps m (withPort qs n s) = withPort ps m s := rfl

/-! ## The arbiter's choice (R162, R167) -/

theorem grantedSide_system {p : Path} {x : SysTxn} (hx : eligibleTxn p = some x)
    (h : p.queue.length < 24 ∨ p.lastSide = .part) : grantedSide p = some .system := by
  unfold grantedSide
  rw [hx]
  cases hq : p.queue.isEmpty with
  | true => rfl
  | false =>
    change (if p.queue.length < 24 then some Side.system else some (otherSide p.lastSide)) = _
    rcases h with h | h
    · rw [if_pos h]
    · rw [h]
      exact ite_self _

/-- R159: the transaction issued leaves the list with one not held less. -/
theorem notHeldCount_issued {p : Path} {x : SysTxn} (hx : eligibleTxn p = some x) :
    ((p.list.filter fun y => decide (y.id ≠ x.id)).filter fun y => !y.held).length < notHeldCount p := by
  obtain ⟨l, r, hlist, hheld, -⟩ := (theEarliestEligibleTransactionIsIssued p x).1 hx
  have hle : ∀ ys : List SysTxn,
      ((ys.filter fun y => decide (y.id ≠ x.id)).filter fun y => !y.held).length ≤ (ys.filter fun y => !y.held).length := by
    intro ys
    rw [List.filter_comm]
    exact List.length_filter_le _ _
  have hl := hle l
  have hr := hle r
  unfold notHeldCount
  rw [hlist]
  simp only [List.filter_append, List.length_append]
  rw [List.filter_cons_of_neg (by simp), List.filter_cons_of_pos (by simp [hheld]), List.length_cons]
  omega

theorem grantMemorySide_system {s : State} {x : SysTxn} (hx : eligibleTxn s.path = some x)
    (h : s.path.queue.length < 24 ∨ s.path.lastSide = .part) :
    grantMemorySide s = acceptWaiting (issueSystem x s) := by
  unfold grantMemorySide
  rw [grantedSide_system hx h]
  simp only [hx]

/-- Settles O24: the arbiter gives the system side its eligible transaction, which leaves room for one at the port; no block
reads what else waits there. -/
theorem grantIssuesTheSystemSide : Obligations.GrantIssuesTheSystemSide := by
  refine ⟨fun mf x s hx hport hside => ?_, fun mf i x p ps s u v hx hport hcount hside ha haddr hi hu hv hps => ?_⟩
  · have hgrant : exec (.memorySideGrant mf) s = .next (acceptWaiting (issueSystem x { s with mfIn := mf })) :=
      congrArg Host.Outcome.next (grantMemorySide_system (s := { s with mfIn := mf }) hx hside)
    have hempty : acceptWaiting (issueSystem x { s with mfIn := mf }) =
        modPath (fun p => { p with port := [] }) (issueSystem x { s with mfIn := mf }) :=
      congrArg (fun q => drainPort q (issueSystem x { s with mfIn := mf })) hport
    rw [hgrant, hempty, ← hport]
    rfl
  · obtain ⟨w, hw⟩ : ∃ w, w = withPort [] s.path.nextId (issueSystem x { s with mfIn := mf }) := ⟨_, rfl⟩
    have hroom : notHeldCount w.path < 8 := by
      have hlt := notHeldCount_issued hx
      rw [hw]
      exact Nat.lt_of_lt_of_le hlt hcount
    have huw : u = w := by
      have hgrant : exec (.memorySideGrant mf) { s with path := { s.path with port := [] } } =
          .next (acceptWaiting (issueSystem x { s with mfIn := mf, path := { s.path with port := [] } })) :=
        congrArg Host.Outcome.next
          (grantMemorySide_system (s := { s with mfIn := mf, path := { s.path with port := [] } }) hx hside)
      rw [hgrant] at hu
      rw [← Host.Outcome.next.inj hu, hw]
      rfl
    have hwport : w.path.port = [] := by rw [hw]; rfl
    have hwmf : w.mfIn = mf := by rw [hw]; rfl
    have hpresent : v = withPort [] (p.id + 1) (acceptTxn p w) := by
      have haddr40 : (BitVec.ofNat 40 p.addr).toNat = p.addr := by
        rw [BitVec.toNat_ofNat]; exact Nat.mod_eq_of_lt haddr
      have hp : presentTxn p.addr p.body (withPort [] p.id w) = withPort [] (p.id + 1) (acceptTxn p w) := by
        rw [presentTxn_room (s := withPort [] p.id w) rfl hroom, ← acceptTxn_withPort]
        rfl
      have hmf : { withPort [] p.id w with mfIn := mf } = withPort [] p.id w := by rw [← hwmf]; rfl
      have hstart : ({ u with path := { u.path with nextId := p.id } } : State) = withPort [] p.id w := by
        rw [huw, withPort, modPath, hwport.symm]
      rw [hstart] at hv
      rcases hi with ⟨beats, hbody, h1, h16, rfl⟩ | ⟨m, hbody, h1, h16, rfl⟩
      · rw [execSystemWrite_wellFormed (by rw [haddr40]; exact ha) h1 h16, haddr40, hmf, ← hbody, hp] at hv
        exact (Host.Outcome.next.inj hv).symm
      · rw [execSystemRead_wellFormed (by rw [haddr40]; exact ha) h1 h16, haddr40, ← hbody, hp] at hv
        exact (Host.Outcome.next.inj hv).symm
    have hvpath : notHeldCount v.path = notHeldCount (acceptTxn p w).path := by rw [hpresent]; rfl
    have haccepted : acceptTxn p (issueSystem x { s with mfIn := mf }) =
        withPort (p :: ps) s.path.nextId (acceptTxn p w) := by
      rw [← acceptTxn_withPort, hw, withPort_withPort, ← hport]
      rfl
    have hdrain : acceptWaiting (issueSystem x { s with mfIn := mf }) =
        drainPort ps (acceptTxn p (issueSystem x { s with mfIn := mf })) := by
      have hroom' : notHeldCount (issueSystem x { s with mfIn := mf }).path < 8 := by
        rw [hw] at hroom; exact hroom
      have hcons : (issueSystem x { s with mfIn := mf }).path.port = p :: ps := hport
      unfold acceptWaiting
      rw [hcons, drainPort, if_pos hroom']
    have hstop : drainPort ps (withPort (p :: ps) s.path.nextId (acceptTxn p w)) =
        withPort ps s.path.nextId (acceptTxn p w) := by
      cases ps with
      | nil => rfl
      | cons q qs =>
        rw [hvpath] at hps
        have hfull : ¬notHeldCount (withPort (p :: q :: qs) s.path.nextId (acceptTxn p w)).path < 8 :=
          Nat.not_lt.2 (hps.resolve_left (List.cons_ne_nil _ _))
        rw [drainPort, if_neg hfull]
        rfl
    have hgrant : exec (.memorySideGrant mf) s = .next (acceptWaiting (issueSystem x { s with mfIn := mf })) :=
      congrArg Host.Outcome.next (grantMemorySide_system (s := { s with mfIn := mf }) hx hside)
    rw [hgrant, hdrain, haccepted, hstop, hpresent]
    rfl

end Sys2Proof.Machine
end

section
/-! PROOF. What line capture leaves: of the memory path all but the outgoing writes, of the other blocks the setup unit, the engine,
the counts and the pins; a beat of one channel's line leaves the other channels. -/

namespace Sys2Proof.Machine

open Sys2Proof.Safety

/-! ## One channel's line -/

section OneLine

variable (c : Chan) (s : State)

theorem countMalformed_onlyChan : OnlyChan c s (countMalformed c s) :=
  (modCounters_onlyChan c s c _).trans (latchChan_onlyChan c _ _)

theorem abandonLine_onlyChan : OnlyChan c s (abandonLine c s) :=
  (modCapture_onlyChan c s _).trans ((countMalformed_onlyChan c _).trans
    ((modCapture_onlyChan c _ _).trans (placeUnseen_onlyChan c _)))

theorem skipLine_onlyChan (j : Nat) : OnlyChan c s (skipLine c j s) :=
  (modCapture_onlyChan c s _).trans ((modCounters_onlyChan c _ c _).trans ((latchChan_onlyChan c _ _).trans
    ((modCapture_onlyChan c _ _).trans (placeUnseen_onlyChan c _))))

theorem startLine_onlyChan (j : Nat) (b : Beat) : OnlyChan c s (startLine c j b s) := by
  unfold startLine
  split
  · exact modCapture_onlyChan c s _
  · exact skipLine_onlyChan c s j

theorem headerBeat_onlyChan (j : Nat) (b : Beat) : OnlyChan c s (headerBeat c j b s) := by
  unfold headerBeat
  split
  · exact startLine_onlyChan c s j b
  · exact startLine_onlyChan c s j b
  · split
    · exact mergeLine_onlyChan c 0 b s
    · exact (abandonLine_onlyChan c s).trans (startLine_onlyChan c _ j b)

theorem reportCompletion_onlyChan : OnlyChan c s (reportCompletion c s) := by
  unfold reportCompletion
  split
  · exact modChan_onlyChan c s _
  · exact modChan_onlyChan c s _
  · exact .refl c s
  · exact .refl c s
  · exact .refl c s

theorem completionConditions_onlyChan (k : LineClass) (gap : Nat) : OnlyChan c s (completionConditions c k gap s) := by
  have hmalformed : OnlyChan c s (if k = .malformed then countMalformed c s else s) := by
    split
    · exact countMalformed_onlyChan c s
    · exact .refl c s
  unfold completionConditions
  simp only
  split
  · exact hmalformed.trans (latchChan_onlyChan c _ _)
  · exact hmalformed

theorem handCount_onlyChan (k : LineClass) (n : Word32) : OnlyChan c s (handCount c k n s) := by
  unfold handCount
  split
  · exact modStrand_onlyChan c s _ _
  · exact .refl c s

theorem completeEffects_onlyChan (e : Fin 2) (k : LineClass) : OnlyChan c s (completeEffects c e k s) := by
  unfold completeEffects
  exact (reportCompletion_onlyChan c s).trans ((modCapture_onlyChan c _ _).trans
    ((completionConditions_onlyChan c _ _ _).trans ((modCapture_onlyChan c _ _).trans (handCount_onlyChan c _ _ _))))

theorem serveIfAlone_onlyChan (b : Bool) : OnlyChan c s (serveIfAlone c b s) := by
  unfold serveIfAlone
  split
  · exact serveHead_onlyChan c 3 s
  · exact .refl c s

theorem completeLine_onlyChan (e : Fin 2) (id i : Nat) (x : Acceptance) : OnlyChan c x.st (completeLine c e id i x).st := by
  unfold completeLine
  simp only
  split
  · exact (completeEffects_onlyChan c _ e _).trans (serveIfAlone_onlyChan c _ _)
  · exact (completeEffects_onlyChan c _ e _).trans
      ((modChan_onlyChan c _ _).trans (serveIfAlone_onlyChan c _ _))

theorem ownTrailer_onlyChan (id i : Nat) (x : Acceptance) : OnlyChan c x.st (ownTrailer c id i x).st := by
  unfold ownTrailer
  split
  · split
    · exact completeLine_onlyChan c _ id i x
    · exact .refl c _
  · exact modCapture_onlyChan c x.st fun k => { k with asm := .idle }
  · exact .refl c _

theorem lineBeat_onlyChan (j o id i : Nat) (b : Beat) (x : Acceptance) : OnlyChan c x.st (lineBeat c j o id i b x).st := by
  have hstray : OnlyChan c x.st (noteStray c x).st := by
    unfold noteStray
    split
    · exact .refl c _
    · exact .refl c _
  unfold lineBeat
  split
  · exact .refl c _
  · split
    · exact ownTrailer_onlyChan c id i x
    · exact hstray
  · split
    · exact .refl c _
    · split
      · exact headerBeat_onlyChan c _ j b
      · split
        · exact ownBeat_onlyChan c _ b _
        · exact hstray

end OneLine

/-! ## The setup unit, the engine, the counts and the pins -/

/-- From `s` to `t` neither the setup unit nor the engine, the counts or the pins change. -/
structure Steady (s t : State) : Prop where
  setup : t.setup = s.setup
  engine : t.engine = s.engine
  us : t.us = s.us
  ms : t.ms = s.ms
  resetLine : t.resetLine = s.resetLine
  mfIn : t.mfIn = s.mfIn

theorem Steady.refl (s : State) : Steady s s := ⟨rfl, rfl, rfl, rfl, rfl, rfl⟩

theorem Steady.trans {s t u : State} (h : Steady s t) (k : Steady t u) : Steady s u :=
  ⟨k.setup.trans h.setup, k.engine.trans h.engine, k.us.trans h.us, k.ms.trans h.ms, k.resetLine.trans h.resetLine,
    k.mfIn.trans h.mfIn⟩

theorem OnlyChan.steady {c : Chan} {s t : State} (h : OnlyChan c s t) : Steady s t :=
  ⟨h.setup, h.engine, h.us, h.ms, h.resetLine, h.mfIn⟩

theorem endOther_onlyChan (j : Nat) (c : Chan) (s : State) (d : Chan) : OnlyChan d s (endOther j c s d) := by
  unfold endOther
  split
  · split
    · split
      · exact abandonLine_onlyChan d s
      · exact .refl d s
    · split
      · exact modCapture_onlyChan d s _
      · exact .refl d s
    · exact .refl d s
  · exact .refl d s

theorem endOthers_steady (j : Nat) (c : Chan) (ds : List Chan) (s : State) : Steady s (ds.foldl (endOther j c) s) := by
  induction ds generalizing s with
  | nil => exact .refl s
  | cons d ds ih => exact (endOther_onlyChan j c s d).steady.trans (ih _)

theorem clearUnrouted_steady (j : Nat) (s : State) : Steady s (clearUnrouted j s) := by
  unfold clearUnrouted
  split
  · exact ⟨rfl, rfl, rfl, rfl, rfl, rfl⟩
  · exact .refl s

theorem replayContent_steady (j n : Nat) (b : Beat) (s : State) : Steady s (replayContent j n b s) := by
  unfold replayContent
  split
  · exact (ownBeat_onlyChan _ n b s).steady
  · exact .refl s

theorem replayHeader_steady (j : Nat) (b : Beat) (s : State) : Steady s (replayHeader j b s) := by
  unfold replayHeader
  split
  · exact (endOthers_steady j _ _ s).trans ((clearUnrouted_steady j _).trans (headerBeat_onlyChan _ _ j b).steady)
  · have hset : Steady (replayContent j 0 b s) { replayContent j 0 b s with unrouted := some j } :=
      ⟨rfl, rfl, rfl, rfl, rfl, rfl⟩
    exact (replayContent_steady j 0 b s).trans (hset.trans (latchPart_onlyChan 0 _ _).steady)

theorem replayBeat_steady (j o id i : Nat) (b : Beat) (x : Acceptance) : Steady x.st (replayBeat j o id i b x).st := by
  unfold replayBeat
  split
  · exact .refl _
  · split
    · exact (ownTrailer_onlyChan _ id i x).steady
    · split
      · exact ⟨rfl, rfl, rfl, rfl, rfl, rfl⟩
      · exact .refl _
  · split
    · exact .refl _
    · simp only
      split
      · exact replayHeader_steady j b _
      · exact replayContent_steady j _ b _

theorem takeBeat_steady (id i a : Nat) (b : Beat) (x : Acceptance) : Steady x.st (takeBeat id i a b x).st := by
  unfold takeBeat
  split
  · split
    · exact (lineBeat_onlyChan _ _ _ id i b x).steady
    · exact .refl _
  · exact replayBeat_steady _ _ id i b x
  · exact .refl _
  · exact .refl _

theorem takeBeats_steady (id a i : Nat) (beats : List Beat) (x : Acceptance) :
    Steady x.st (takeBeats id a i beats x).st := by
  induction beats generalizing i x with
  | nil => exact .refl _
  | cons b bs ih => exact (takeBeat_steady id i _ b x).trans (ih (i + 1) _)

theorem countStrays_steady (cs : List Chan) (s : State) : Steady s (cs.foldl countStray s) := by
  induction cs generalizing s with
  | nil => exact .refl s
  | cons c cs ih => exact (modCounters_onlyChan c s c _).steady.trans (ih _)

theorem captureWrite_steady (id a : Nat) (beats : List Beat) (s : State) : Steady s (captureWrite id a beats s).st :=
  (takeBeats_steady id a 0 beats { st := s, rewrites := [], isHeld := false, strays := [] }).trans (countStrays_steady _ _)

/-! ## The memory path -/

/-- What holds of the memory path and is kept by every word offered. -/
def pathVeil (good : Path → Prop) (hgood : ∀ a d p, good p → good (offerWordTo a d p)) : Veil where
  path p _ := good p
  held _ h x := x = h
  counters k l := l = k
  shift := 0
  strict := True
  offers a d p _ h := hgood a d p h
  counts f _ k l h := by rw [h]
  holds c h x k hx := by rw [hx, Nat.zero_add]

/-- R5: line capture does to the memory path nothing but offer words. -/
theorem captureWrite_path {good : Path → Prop} (hgood : ∀ a d p, good p → good (offerWordTo a d p)) {s : State}
    (hs : good s.path) (id a : Nat) (beats : List Beat) : good (captureWrite id a beats s).st.path := by
  have hrefl : Alike (pathVeil good hgood) s s := ⟨hs, fun c => ⟨_, rfl, rfl⟩, fun _ => rfl, rfl, rfl⟩
  have h := AlikeTaken.takeBeats id a beats 0
    (x := { st := s, rewrites := [], isHeld := false, strays := [] })
    (y := { st := s, rewrites := [], isHeld := false, strays := [] }) (v := pathVeil good hgood) (pre := []) (held := false)
    ⟨hrefl, rfl, rfl, fun _ => rfl⟩
  exact (h.strayCounts trivial).path

theorem captureWrite_list (id a : Nat) (beats : List Beat) (s : State) :
    (captureWrite id a beats s).st.path.list = s.path.list := by
  refine captureWrite_path (good := fun p => p.list = s.path.list) (fun b d p hp => ?_) rfl id a beats
  rw [← hp]
  unfold offerWordTo
  split
  · rfl
  · split
    · rfl
    · rfl

end Sys2Proof.Machine
end

section
/-! A write of the system side accepted (R5, R159), and what each of its beats does where it reaches a channel's slot (R1, R6, R7,
R9, R22, R23). -/

namespace Sys2Proof.Machine

open Sys2Proof.Safety

/-! ## A write outside the setup block (R159, R172, R173) -/

/-- The state in which line capture takes a write presented now: the levels it carries on the MF lines, its number taken. -/
def presented (mf : BitVec 8) (s : State) : State :=
  modPath (fun p => { p with nextId := p.nextId + 1 }) { s with mfIn := mf }

/-- R159, R161: the state after a write outside the setup block: taken by line capture, then listed. -/
def afterWrite (mf : BitVec 8) (addr : BitVec 40) (beats : List Beat) (s : State) : State :=
  listTxn
    { id := s.path.nextId, addr := addr.toNat
      body := .write (applyRewrites (captureWrite s.path.nextId addr.toNat beats (presented mf s)).rewrites beats)
      held := (captureWrite s.path.nextId addr.toNat beats (presented mf s)).isHeld, watch := watchNow s }
    (captureWrite s.path.nextId addr.toNat beats (presented mf s)).st

/-- R172: no beat of a write from `a` falls in the setup block. -/
def ClearOfSetup (s : State) (a : Nat) (beats : List Beat) : Prop :=
  ∀ i, i < beats.length → ¬(setupBase s.setup.strap ≤ a + 8 * i ∧ a + 8 * i < setupBase s.setup.strap + setupSize)

theorem clearOfSetup_of_region {s : State} {a : Nat} {beats : List Beat}
    (h : ∀ i, i < beats.length → ∀ o, regionOf s (a + 8 * i) ≠ .setup o) : ClearOfSetup s a beats := fun i hi hin =>
  h i hi (a + 8 * i - setupBase s.setup.strap) (by rw [regionOf, if_pos hin])

theorem stageBeats_clear (base : Nat) (beats : List Beat) {a : Nat} (m : Store Byte)
    (h : ∀ i, i < beats.length → ¬(base ≤ a + 8 * i ∧ a + 8 * i < base + setupSize)) : stageBeats base a beats m = m := by
  induction beats generalizing a with
  | nil => rfl
  | cons b bs ih =>
    have h0 : ¬(base ≤ a ∧ a < base + setupSize) := h 0 (Nat.succ_pos _)
    rw [stageBeats, if_neg h0]
    exact ih fun i hi => by
      have hnext := h (i + 1) (Nat.succ_lt_succ hi)
      rwa [show a + 8 * (i + 1) = a + 8 + 8 * i by omega] at hnext

theorem startsCommand_clear (base : Nat) (beats : List Beat) {a : Nat}
    (h : ∀ i, i < beats.length → ¬(base ≤ a + 8 * i ∧ a + 8 * i < base + setupSize)) :
    startsCommand base a beats = false := by
  have hin : commandWordAt < setupSize := by decide
  induction beats generalizing a with
  | nil => rfl
  | cons b bs ih =>
    have h0 : ¬(base ≤ a ∧ a < base + setupSize) := h 0 (Nat.succ_pos _)
    have ha : a ≠ base + commandWordAt := by omega
    have htail : startsCommand base (a + 8) bs = false := ih fun i hi => by
      have hnext := h (i + 1) (Nat.succ_lt_succ hi)
      rwa [show a + 8 * (i + 1) = a + 8 + 8 * i by omega] at hnext
    rw [startsCommand, htail, decide_eq_false ha, Bool.false_and, Bool.or_false]

/-- R159: a write clear of the setup block is taken by line capture and listed; a command in progress may end with it. -/
theorem exec_systemWrite_settles {mf : BitVec 8} {addr : BitVec 40} {beats : List Beat} {s : State} (hs : Accepting s)
    (ha : addr.toNat % 8 = 0) (h1 : 1 ≤ beats.length) (h16 : beats.length ≤ 16) (hclear : ClearOfSetup s addr.toNat beats) :
    exec (.systemWrite mf addr beats) s = .next (settleCommand (afterWrite mf addr beats s)) := by
  rw [execSystemWrite_wellFormed ha h1 h16, presentTxn_accepted _ _ (s := { s with mfIn := mf }) hs]
  refine congrArg Host.Outcome.next ?_
  change acceptWrite s.path.nextId addr.toNat beats (presented mf s) = _
  have hcapture := captureWrite_steady s.path.nextId addr.toNat beats (presented mf s)
  unfold acceptWrite afterWrite
  generalize captureWrite s.path.nextId addr.toNat beats (presented mf s) = x at hcapture
  have hsetup : x.st.setup = s.setup := hcapture.setup
  have hstage : stageWrite addr.toNat beats x.st = x.st := by
    unfold stageWrite
    rw [stageBeats_clear _ _ _ (by rw [hsetup]; exact hclear)]
  have hstart : startsCommand (setupBase s.setup.strap) addr.toNat beats = false := startsCommand_clear _ _ hclear
  simp only
  rw [hstage]
  exact if_neg (by rw [show (presented mf s).setup = s.setup from rfl, hstart]; exact Bool.false_ne_true)

theorem exec_systemWrite {mf : BitVec 8} {addr : BitVec 40} {beats : List Beat} {s : State} (hs : Accepting s)
    (hr : s.setup.command = .ready) (ha : addr.toNat % 8 = 0) (h1 : 1 ≤ beats.length) (h16 : beats.length ≤ 16)
    (hclear : ClearOfSetup s addr.toNat beats) : exec (.systemWrite mf addr beats) s = .next (afterWrite mf addr beats s) := by
  have hsetup : (afterWrite mf addr beats s).setup = s.setup :=
    (captureWrite_steady s.path.nextId addr.toNat beats (presented mf s)).setup
  rw [exec_systemWrite_settles hs ha h1 h16 hclear, settleCommand_ready (by rw [hsetup, hr])]

theorem watchNow_geometry {s : State} {g : Geometry} (hline : s.resetLine = false) (hg : s.setup.geometry = some g) :
    watchNow s = .all := by
  rw [watchNow, hline, hg]
  rfl

/-! ## Kinds of beats and owners of slots (R1, R22, R23) -/

theorem beatKind_content {w o : Nat} (h : o < 32 + w) : beatKind w o = .content (o / 8) := by rw [beatKind, if_pos h]

theorem beatKind_trailer {w o : Nat} (hlo : 32 + w ≤ o) (hhi : o < 40 + w) : beatKind w o = .trailer := by
  rw [beatKind, if_neg (by omega), if_pos hhi]

theorem beatKind_padding {w o : Nat} (h : 40 + w ≤ o) : beatKind w o = .padding := by
  rw [beatKind, if_neg (by omega), if_neg (by omega)]

theorem asmSlot_eq_some {k : Capture} {j : Nat} : asmSlot k = some j ↔ k.asm = .assembling j ∨ k.asm = .skipping j := by
  unfold asmSlot
  cases k.asm with
  | idle => simp
  | assembling i => simp
  | skipping i => simp

theorem replayOwner_some {s : State} {j : Nat} {c : Chan} (h : replayOwner s j = some c) :
    replays s c = true ∧ asmSlot (s.chan c).capture = some j := by
  have hc := List.find?_some h
  simpa only [Bool.and_eq_true, decide_eq_true_eq] using hc

theorem replayOwner_nobody {s : State} {j : Nat} (h : NobodyAt s j) : replayOwner s j = none := by
  cases ho : replayOwner s j with
  | none => rfl
  | some c =>
    obtain ⟨hr, hslot⟩ := replayOwner_some ho
    exact (asmSlot_eq_some.1 hslot).elim (fun hk => absurd hk (h c hr).1) (fun hk => absurd hk (h c hr).2)

theorem replayOwner_alone {s : State} {j : Nat} {c : Chan} (hr : replays s c = true) (ha : AloneAt s c j)
    (hslot : asmSlot (s.chan c).capture = some j) : replayOwner s j = some c := by
  cases ho : replayOwner s j with
  | none =>
    have hc := List.find?_eq_none.1 ho c (mem_allChans c)
    simp only [hr, hslot, decide_true, Bool.and_true, not_true] at hc
  | some d =>
    obtain ⟨hrd, hslotd⟩ := replayOwner_some ho
    by_cases hd : d = c
    · rw [hd]
    · exact (asmSlot_eq_some.1 hslotd).elim (fun hk => absurd hk (ha d hd hrd).1) (fun hk => absurd hk (ha d hd hrd).2)

/-! ## A beat that reaches a channel's slot -/

section Reaches

variable {x : Acceptance} {c : Chan} {j o a w : Nat} {b : Beat}

theorem takeBeat_line (id i : Nat) (hreg : regionOf x.st a = .line c j o) (hlive : livesOn x.st c = true) :
    takeBeat id i a b x = lineBeat c j o id i b x := by
  unfold takeBeat
  rw [hreg]
  exact if_pos hlive

theorem takeBeat_replay (id i : Nat) (hreg : regionOf x.st a = .replay j o) :
    takeBeat id i a b x = replayBeat j o id i b x := by
  unfold takeBeat
  rw [hreg]

/-- R9, R23: a trailer beat of the slot that the channel is assembling or skipping. -/
theorem takeBeat_trailer (id i : Nat) (hw : heldW x.st = w) (hreach : BeatReaches x.st c j o a) (hlo : 32 + w ≤ o)
    (hhi : o < 40 + w) (hslot : asmSlot (x.st.chan c).capture = some j) :
    takeBeat id i a b x = ownTrailer c id i x := by
  rcases hreach with ⟨hreg, hlive⟩ | ⟨hreg, hr, ha⟩
  · rw [takeBeat_line id i hreg hlive, lineBeat, hw, beatKind_trailer hlo hhi]
    exact if_pos hslot
  · rw [takeBeat_replay id i hreg, replayBeat, hw, beatKind_trailer hlo hhi]
    simp only [replayOwner_alone hr ha hslot]

/-- R7, R10, R23: a header or pixel beat but the first, of the slot that the channel is assembling or skipping. -/
theorem takeBeat_content (id i : Nat) (hw : heldW x.st = w) (hreach : BeatReaches x.st c j o a) (hlo : 8 ≤ o)
    (hhi : o < 32 + w) (hslot : asmSlot (x.st.chan c).capture = some j) (hb : b.enables ≠ 0) :
    takeBeat id i a b x = { x with st := ownBeat c (o / 8) b x.st } := by
  have h0 : o / 8 ≠ 0 := by omega
  rcases hreach with ⟨hreg, hlive⟩ | ⟨hreg, hr, ha⟩
  · rw [takeBeat_line id i hreg hlive, lineBeat, hw, beatKind_content hhi]
    simp only
    rw [if_neg hb, if_neg h0, if_pos hslot]
  · rw [takeBeat_replay id i hreg, replayBeat, hw, beatKind_content hhi]
    simp only
    rw [if_neg hb, if_neg h0, replayContent, replayOwner_alone hr ha hslot]

/-- R5: a header or pixel beat without an enable does nothing. -/
theorem takeBeat_noEnable (id i : Nat) (hw : heldW x.st = w) (hreach : BeatReaches x.st c j o a) (hhi : o < 32 + w)
    (hb : b.enables = 0) : takeBeat id i a b x = x := by
  rcases hreach with ⟨hreg, hlive⟩ | ⟨hreg, hr, ha⟩
  · rw [takeBeat_line id i hreg hlive, lineBeat, hw, beatKind_content hhi]
    exact if_pos hb
  · rw [takeBeat_replay id i hreg, replayBeat, hw, beatKind_content hhi]
    exact if_pos hb

/-- R22: the header beat names channel `c`, which is in mode REPLAY. -/
theorem routedChan_some {s : State} (hr : replays s c = true) (h4 : writtenByte b 4 ≤ 3) (h5 : writtenByte b 5 ≤ 3)
    (hc : c.val = 4 * writtenByte b 4 + writtenByte b 5) : routedChan s b = some c := by
  unfold routedChan headerChan
  rw [if_pos (by omega)]
  simp only
  rw [← hc]
  cases hf : allChans.find? fun d => decide (d.val = c.val) && replays s d with
  | none =>
    have hn := List.find?_eq_none.1 hf c (mem_allChans c)
    simp only [hr, decide_true, Bool.and_true, not_true] at hn
  | some d =>
    have hd := List.find?_some hf
    simp only [Bool.and_eq_true, decide_eq_true_eq] at hd
    rw [Fin.ext hd.1]

theorem endOther_alone {s : State} (ha : AloneAt s c j) (d : Chan) : endOther j c s d = s := by
  unfold endOther
  split
  · next h =>
    obtain ⟨hd, hr⟩ := h
    obtain ⟨hasm, hskip⟩ := ha d hd hr
    cases hk : (s.chan d).capture.asm with
    | idle => rfl
    | assembling k =>
      simp only
      exact if_neg fun hkj => hasm (by rw [hk, hkj])
    | skipping k =>
      simp only
      exact if_neg fun hkj => hskip (by rw [hk, hkj])
  · rfl

theorem endOthers_alone {s : State} (ha : AloneAt s c j) (ds : List Chan) : ds.foldl (endOther j c) s = s := by
  induction ds with
  | nil => rfl
  | cons d ds ih => rw [List.foldl_cons, endOther_alone ha, ih]

/-- R6, R22: a written header beat 0 that reaches the channel; in the replay window it ends the unrouted slot there. -/
theorem takeBeat_header (id i : Nat) (hreach : HeaderReaches x.st c j a b) :
    takeBeat id i a b x =
      { x with st := headerBeat c j b { x.st with unrouted := unroutedAfter x.st j a } } := by
  obtain ⟨hb, hbeat, hroute⟩ := hreach
  have hkind : beatKind (heldW x.st) 0 = .content 0 := by
    rw [beatKind_content (by omega)]
  rcases hbeat with ⟨hreg, hlive⟩ | ⟨hreg, hr, ha⟩
  · have hun : unroutedAfter x.st j a = x.st.unrouted := by
      rw [unroutedAfter, hreg]
      exact if_neg fun h => Region.noConfusion h.1
    rw [takeBeat_line id i hreg hlive, lineBeat, hkind, hun]
    simp only
    rw [if_neg hb]
    exact if_pos trivial
  · obtain ⟨h4, h5, hc⟩ := hroute hreg
    have hun : clearUnrouted j x.st = { x.st with unrouted := unroutedAfter x.st j a } := by
      unfold clearUnrouted unroutedAfter
      by_cases hj : x.st.unrouted = some j
      · rw [if_pos hj, if_pos ⟨hreg, hj⟩]
      · rw [if_neg hj, if_neg fun h => hj h.2]
    rw [takeBeat_replay id i hreg, replayBeat, hkind]
    simp only
    rw [if_neg hb, if_pos trivial, replayHeader, routedChan_some hr h4 h5 hc]
    simp only
    rw [endOthers_alone ha, hun]

end Reaches

end Sys2Proof.Machine
end

section
/-! Header and pixel beats merged into the line in progress (R7), one after the other. -/

namespace Sys2Proof.Machine

open Sys2Proof.Safety

/-! ## One beat merged -/

theorem mem_setFlag {i m : Nat} {l : List Nat} : m ∈ setFlag i l ↔ m = i ∨ m ∈ l := by
  induction l with
  | nil => simp [setFlag]
  | cons x xs ih =>
    unfold setFlag
    split
    · simp
    · split
      · next h => subst h; simp
      · simp only [List.mem_cons, ih]
        tauto

theorem mergedBeat_mergeInto (n : Nat) (b : Beat) {old : Entry} (hwf : wfStore 0 old.buffer = true) :
    MergedBeat n b old (mergeInto n b old) := by
  refine ⟨fun k => ?_, fun m => mem_setFlag, rfl⟩
  refine (readStore_mergeBeat (fun _ => true) (8 * n) b.data b.enables 8 old.buffer k le_rfl hwf).trans ?_
  have hc : (8 * n + (8 - 8) ≤ k ∧ k < 8 * n + 8 ∧ b.enables.getLsbD (k - 8 * n) = true ∧ true = true) ↔
      (8 * n ≤ k ∧ k < 8 * n + 8 ∧ b.enables.getLsbD (k - 8 * n) = true) := by
    constructor
    · rintro ⟨h1, h2, h3, -⟩
      exact ⟨by omega, h2, h3⟩
    · rintro ⟨h1, h2, h3⟩
      exact ⟨by omega, h2, h3, rfl⟩
  exact if_congr hc rfl rfl

theorem mergeLine_eq {c : Chan} {s : State} {e : Fin 2} (he : assemblingEntry (s.chan c).capture = some e) (n : Nat) (b : Beat) :
    mergeLine c n b s =
      setChan c
        { s.chan c with
          capture := setEntry (s.chan c).capture e (mergeInto n b (entryOf (s.chan c).capture e)) } s := by
  unfold mergeLine
  rw [he]
  rfl

theorem assemblingEntry_congr {k l : Capture} (h0 : l.e0.state = k.e0.state) (h1 : l.e1.state = k.e1.state) :
    assemblingEntry l = assemblingEntry k := by
  unfold assemblingEntry
  rw [h0, h1]

theorem assemblingEntry_setEntry {k : Capture} {e : Fin 2} {v : Entry} (he : assemblingEntry k = some e)
    (hv : v.state = (entryOf k e).state) : assemblingEntry (setEntry k e v) = some e := by
  rw [← he]
  match e with
  | 0 => exact assemblingEntry_congr hv rfl
  | 1 => exact assemblingEntry_congr rfl hv

theorem setEntry_setEntry (k : Capture) (e : Fin 2) (v w : Entry) : setEntry (setEntry k e v) e w = setEntry k e w := by
  match e with
  | 0 => rfl
  | 1 => rfl

/-! ## The beats of one write merged -/

theorem mergedBeats_nil (o : Nat) (old : Entry) : MergedBeats o [] old old :=
  ⟨fun _ => rfl, fun m => ⟨.inl, fun h => h.elim id fun ⟨i, b, hb, _⟩ => by simp at hb⟩, rfl⟩

/-- What the first of the beats has made of the entry, and then the others of that. -/
theorem mergedBeats_cons {o : Nat} {b : Beat} {bs : List Beat} {old mid new : Entry} (ho : o % 8 = 0)
    (hmid : (b.enables = 0 ∧ mid = old) ∨ (b.enables ≠ 0 ∧ MergedBeat (o / 8) b old mid))
    (hnew : MergedBeats (o + 8) bs mid new) : MergedBeats o (b :: bs) old new := by
  obtain ⟨hreads, hflags, hrest⟩ := hnew
  have hmidRead : ∀ k, readStore 0 mid.buffer k =
      if o ≤ k ∧ k < o + 8 ∧ b.enables.getLsbD (k - o) = true then byteOf b.data (k - o) else readStore 0 old.buffer k := by
    intro k
    rcases hmid with ⟨hb, rfl⟩ | ⟨-, hread, -⟩
    · rw [if_neg]
      rw [hb]
      simp
    · rw [hread k, show 8 * (o / 8) = o by omega]
  refine ⟨fun k => ?_, fun m => ?_, ?_⟩
  · have hk := hreads k
    by_cases hnext : o + 8 ≤ k
    · rw [hmidRead k, if_neg (by omega)] at hk
      rw [hk, show (k - o) / 8 = (k - (o + 8)) / 8 + 1 by omega, List.getElem?_cons_succ,
        show (k - (o + 8)) % 8 = (k - o) % 8 by omega]
      cases bs[(k - (o + 8)) / 8]? with
      | none => rfl
      | some b' => simp only [hnext, show o ≤ k by omega]
    · have hkeep : readStore 0 new.buffer k = readStore 0 mid.buffer k := by
        rw [hk]
        cases bs[(k - (o + 8)) / 8]? with
        | none => rfl
        | some b' => exact if_neg fun h => hnext h.1
      rw [hkeep, hmidRead k, show (k - o) / 8 = 0 by omega, List.getElem?_cons_zero]
      simp only
      by_cases hin : o ≤ k
      · simp only [hin, show k < o + 8 by omega, true_and, show (k - o) % 8 = k - o by omega]
      · rw [if_neg fun h => hin h.1, if_neg fun h => hin h.1]
  · have hmidFlag : m ∈ mid.beatMap ↔ m ∈ old.beatMap ∨ (b.enables ≠ 0 ∧ m = o / 8) := by
      rcases hmid with ⟨hb, rfl⟩ | ⟨hb, -, hflag, -⟩
      · simp [hb]
      · rw [hflag m]
        tauto
    rw [hflags m, hmidFlag]
    constructor
    · rintro ((h | ⟨hb, h⟩) | ⟨i, b', hi, hb', h⟩)
      · exact .inl h
      · exact .inr ⟨0, b, rfl, hb, by omega⟩
      · exact .inr ⟨i + 1, b', hi, hb', by omega⟩
    · rintro (h | ⟨i, b', hi, hb', h⟩)
      · exact .inl (.inl h)
      · cases i with
        | zero =>
          have hbb : b = b' := Option.some.inj hi
          exact .inl (.inr ⟨by rw [hbb]; exact hb', by omega⟩)
        | succ i => exact .inr ⟨i, b', hi, hb', by omega⟩
  · have hmidRest : mid = { old with buffer := mid.buffer, beatMap := mid.beatMap } := by
      rcases hmid with ⟨-, rfl⟩ | ⟨-, -, -, h⟩
      · rfl
      · exact h
    rw [hrest, hmidRest]

/-- The slot that a beat reaches is told by the setup unit, the channel records and the other channels' captures. -/
theorem beatReaches_setChan {s : State} {c : Chan} {ch : Channel} {j o a : Nat} (h : BeatReaches s c j o a)
    (hrecord : ch.record = (s.chan c).record) : BeatReaches (setChan c ch s) c j o a := by
  have hrecords : ∀ d, ((setChan c ch s).chan d).record = (s.chan d).record := by
    intro d
    by_cases hd : d = c
    · subst hd; rw [chan_setChan_same, hrecord]
    · rw [chan_setChan_other _ _ hd]
  have hwatch : ∀ d, watches (setChan c ch s) d = watches s d := fun d => by unfold watches; rw [hrecords]
  have hreplays : ∀ d, replays (setChan c ch s) d = replays s d := fun d => by unfold replays; rw [hwatch, hrecords]
  rcases h with ⟨hreg, hlive⟩ | ⟨hreg, hr, ha⟩
  · refine .inl ⟨hreg, ?_⟩
    unfold livesOn
    rw [hwatch, hrecords]
    exact hlive
  · refine .inr ⟨hreg, by rw [hreplays]; exact hr, fun d hd hrd => ?_⟩
    rw [hreplays] at hrd
    rw [chan_setChan_other _ _ hd]
    exact ha d hd hrd

/-- R5, R7: the beats of one write, each of the slot that the channel is assembling, merged into its entry. -/
theorem takeBeats_merged {c : Chan} {j w : Nat} {e : Fin 2} (id a : Nat) (beats : List Beat) {o i : Nat} {x : Acceptance}
    (hw : heldW x.st = w) (hreach : ∀ m, m < beats.length → BeatReaches x.st c j (o + 8 * m) (a + 8 * (i + m)))
    (ho : o % 8 = 0) (hlo : 8 ≤ o) (hhi : o + 8 * beats.length ≤ 32 + w) (hasm : (x.st.chan c).capture.asm = .assembling j)
    (he : assemblingEntry (x.st.chan c).capture = some e) (hwf : wfStore 0 (entryOf (x.st.chan c).capture e).buffer = true) :
    ∃ new, MergedBeats o beats (entryOf (x.st.chan c).capture e) new ∧
      takeBeats id a i beats x =
        { x with st := setChan c { x.st.chan c with capture := setEntry (x.st.chan c).capture e new } x.st } := by
  induction beats generalizing o i x with
  | nil =>
    refine ⟨_, mergedBeats_nil o _, ?_⟩
    have hself : setEntry (x.st.chan c).capture e (entryOf (x.st.chan c).capture e) = (x.st.chan c).capture := by
      match e with
      | 0 => rfl
      | 1 => rfl
    rw [hself, setChan_self]
    rfl
  | cons b bs ih =>
    have hlen : (b :: bs).length = bs.length + 1 := rfl
    have hfirst : BeatReaches x.st c j o (a + 8 * i) := hreach 0 (Nat.succ_pos _)
    have hrest : ∀ m, m < bs.length → BeatReaches x.st c j (o + 8 + 8 * m) (a + 8 * (i + 1 + m)) := fun m hm => by
      have := hreach (m + 1) (Nat.succ_lt_succ hm)
      rwa [show o + 8 * (m + 1) = o + 8 + 8 * m by omega, show i + (m + 1) = i + 1 + m by omega] at this
    by_cases hb : b.enables = 0
    · obtain ⟨new, hnew, htake⟩ := ih hw hrest (by omega) (by omega) (by omega) hasm he hwf
      refine ⟨new, mergedBeats_cons ho (.inl ⟨hb, rfl⟩) hnew, ?_⟩
      rw [takeBeats, takeBeat_noEnable id i hw hfirst (by omega) hb]
      exact htake
    · have hown : ownBeat c (o / 8) b x.st = mergeLine c (o / 8) b x.st := by rw [ownBeat, hasm]
      have htake := takeBeat_content id i hw hfirst hlo (by omega) (asmSlot_eq_some.2 (.inl hasm)) hb
      rw [hown, mergeLine_eq he] at htake
      generalize hmid : mergeInto (o / 8) b (entryOf (x.st.chan c).capture e) = mid at htake
      have hmerged : MergedBeat (o / 8) b (entryOf (x.st.chan c).capture e) mid := hmid ▸ mergedBeat_mergeInto _ _ hwf
      have hmidwf : wfStore 0 mid.buffer = true := hmid ▸ wfStore_mergeInto _ _ hwf
      have hmidstate : mid.state = (entryOf (x.st.chan c).capture e).state := by rw [← hmid]; rfl
      obtain ⟨new, hnew, hrun⟩ := ih (o := o + 8) (i := i + 1)
        (x := { x with st := setChan c { x.st.chan c with capture := setEntry (x.st.chan c).capture e mid } x.st }) hw
        (fun m hm => beatReaches_setChan (hrest m hm) rfl) (by omega) (by omega) (by omega)
        (by simp only [chan_setChan_same, setEntry_rest]; exact hasm)
        (by simp only [chan_setChan_same]; exact assemblingEntry_setEntry he hmidstate)
        (by simp only [chan_setChan_same, entryOf_setEntry_same]; exact hmidwf)
      simp only [chan_setChan_same, entryOf_setEntry_same, setEntry_setEntry, setChan_setChan] at hnew hrun
      refine ⟨new, mergedBeats_cons ho (.inr ⟨hb, hmerged⟩) hnew, ?_⟩
      rw [takeBeats, htake]
      exact hrun

end Sys2Proof.Machine
end

section
/-! Writes that no line takes, stray beats, and header beats at a channel that is ready for them (R5 to R7, R10, R11, R22, R23). -/

namespace Sys2Proof.Machine

open Sys2Proof.Safety

/-! ## Beats that do nothing (R1, R3, R5, R10, R23) -/

theorem heldW_geometry {s : State} {g : Geometry} (h : s.setup.geometry = some g) : heldW s = g.w := by rw [heldW, h]; rfl

theorem takeBeats_fixed (id a : Nat) (beats : List Beat) {i : Nat} {x : Acceptance}
    (h : ∀ m b, beats[m]? = some b → takeBeat id (i + m) (a + 8 * (i + m)) b x = x) : takeBeats id a i beats x = x := by
  induction beats generalizing i with
  | nil => rfl
  | cons b bs ih =>
    have hfirst : takeBeat id i (a + 8 * i) b x = x := h 0 b rfl
    rw [takeBeats, hfirst]
    refine ih fun m b' hb' => ?_
    have hm := h (m + 1) b' hb'
    rwa [show i + (m + 1) = i + 1 + m by omega] at hm

theorem captureWrite_fixed {id a : Nat} {beats : List Beat} {s : State}
    (h : ∀ m b, beats[m]? = some b → ∀ i, takeBeat id i (a + 8 * m) b { st := s, rewrites := [], isHeld := false, strays := [] } =
      { st := s, rewrites := [], isHeld := false, strays := [] }) :
    captureWrite id a beats s = { st := s, rewrites := [], isHeld := false, strays := [] } := by
  unfold captureWrite
  rw [takeBeats_fixed id a beats fun m b hb => by rw [Nat.zero_add]; exact h m b hb m]
  rfl

/-- R159: a write that line capture makes nothing of is listed. -/
theorem exec_systemWrite_untaken {mf : BitVec 8} {addr : BitVec 40} {beats : List Beat} {s : State} (hs : Accepting s)
    (hr : s.setup.command = .ready) (ha : addr.toNat % 8 = 0) (h1 : 1 ≤ beats.length) (h16 : beats.length ≤ 16)
    (hclear : ClearOfSetup s addr.toNat beats)
    (hcapture : captureWrite s.path.nextId addr.toNat beats (presented mf s) =
      { st := presented mf s, rewrites := [], isHeld := false, strays := [] }) :
    exec (.systemWrite mf addr beats) s =
      .next
        (listTxn { id := s.path.nextId, addr := addr.toNat, body := .write beats, held := false, watch := watchNow s }
          (presented mf s)) := by
  rw [exec_systemWrite hs hr ha h1 h16 hclear, afterWrite, hcapture]
  rfl

theorem takeBeat_noLine {g : Geometry} {a : Nat} {b : Beat} {x : Acceptance} (id i : Nat) (hg : x.st.setup.geometry = some g)
    (h : noLine x.st g.w a b = true) : takeBeat id i a b x = x := by
  have hw := heldW_geometry hg
  unfold noLine at h
  unfold takeBeat
  cases hreg : regionOf x.st a with
  | elsewhere => rfl
  | setup o => rfl
  | line c j o =>
    rw [hreg] at h
    rcases of_decide_eq_true h with hlive | hpad | ⟨hin, hb | ⟨h8, hskip⟩⟩
    · exact if_neg (by rw [hlive]; exact Bool.false_ne_true)
    · simp only
      rw [lineBeat, hw, beatKind_padding hpad]
      exact ite_self x
    · simp only
      rw [lineBeat, hw, beatKind_content hin]
      simp only
      rw [if_pos hb]
      exact ite_self x
    · simp only
      rw [lineBeat, hw, beatKind_content hin]
      simp only
      rw [if_neg (show o / 8 ≠ 0 by omega), if_pos (asmSlot_eq_some.2 (.inr hskip)), ownBeat, hskip]
      simp only [ite_self]
  | replay j o =>
    rw [hreg] at h
    simp only
    rcases of_decide_eq_true h with hpad | ⟨hin, hb | ⟨h8, hnone⟩⟩ | ⟨hlo, hnobody, hun⟩
    · rw [replayBeat, hw, beatKind_padding hpad]
    · rw [replayBeat, hw, beatKind_content hin]
      exact if_pos hb
    · have hcontent : replayContent j (o / 8) b x.st = x.st := by
        unfold replayContent
        cases ho : replayOwner x.st j with
        | none => rfl
        | some c =>
          obtain ⟨hr, hslot⟩ := replayOwner_some ho
          have hskip := (asmSlot_eq_some.1 hslot).resolve_left (hnone c hr)
          simp only
          rw [ownBeat, hskip]
      rw [replayBeat, hw, beatKind_content hin]
      simp only
      rw [if_neg (show o / 8 ≠ 0 by omega), hcontent]
      exact ite_self x
    · by_cases hhi : o < 40 + g.w
      · rw [replayBeat, hw, beatKind_trailer hlo hhi]
        simp only
        rw [replayOwner_nobody hnobody]
        exact if_neg hun
      · rw [replayBeat, hw, beatKind_padding (by omega)]

/-! ## Stray beats (R11) -/

theorem takeBeat_stray {c : Chan} {g : Geometry} {a : Nat} {b : Beat} {x : Acceptance} (id i : Nat)
    (hg : x.st.setup.geometry = some g) (hlive : livesOn x.st c = true) (h : strayBeat x.st c g.w a b = true) :
    takeBeat id i a b x = noteStray c x := by
  have hw := heldW_geometry hg
  unfold strayBeat at h
  cases hreg : regionOf x.st a with
  | elsewhere => rw [hreg] at h; exact absurd h Bool.false_ne_true
  | setup o => rw [hreg] at h; exact absurd h Bool.false_ne_true
  | replay j o => rw [hreg] at h; exact absurd h Bool.false_ne_true
  | line d j o =>
    rw [hreg] at h
    obtain ⟨rfl, hasm, hskip, hkind⟩ := of_decide_eq_true h
    have hslot : asmSlot (x.st.chan d).capture ≠ some j := fun hs => (asmSlot_eq_some.1 hs).elim hasm hskip
    rw [takeBeat_line id i hreg hlive]
    rcases hkind with ⟨h8, hin, hb⟩ | ⟨hlo, hhi⟩
    · rw [lineBeat, hw, beatKind_content hin]
      simp only
      rw [if_neg hb, if_neg (show o / 8 ≠ 0 by omega), if_neg hslot]
    · rw [lineBeat, hw, beatKind_trailer hlo hhi]
      exact if_neg hslot

/-- R11: a write whose beats are stray in one channel's window or of no line notes the channel once. -/
theorem takeBeats_strays {c : Chan} {g : Geometry} (id a : Nat) (beats : List Beat) {i : Nat} {x : Acceptance}
    (hg : x.st.setup.geometry = some g) (hlive : livesOn x.st c = true)
    (h : ∀ m b, beats[m]? = some b →
      noLine x.st g.w (a + 8 * (i + m)) b = true ∨ strayBeat x.st c g.w (a + 8 * (i + m)) b = true)
    (hx : x.strays = [] ∨ x.strays = [c]) :
    ∃ l, takeBeats id a i beats x = { x with strays := l } ∧
      ((x.strays = [c] ∨ ∃ m b, beats[m]? = some b ∧ strayBeat x.st c g.w (a + 8 * (i + m)) b = true) → l = [c]) := by
  induction beats generalizing i x with
  | nil => exact ⟨x.strays, rfl, fun hor => hor.elim (fun hs => hs) fun ⟨m, b, hb, _⟩ => by simp at hb⟩
  | cons b bs ih =>
    have htail : ∀ m b', bs[m]? = some b' → noLine x.st g.w (a + 8 * (i + 1 + m)) b' = true ∨
        strayBeat x.st c g.w (a + 8 * (i + 1 + m)) b' = true := fun m b' hb' => by
      have := h (m + 1) b' hb'
      rwa [show i + (m + 1) = i + 1 + m by omega] at this
    have hnote : noteStray c x = { x with strays := [c] } := by
      unfold noteStray
      rcases hx with hx | hx
      · rw [hx]; rfl
      · rw [if_pos (by rw [hx]; simp)]
        rw [← hx]
    have hfirst : noLine x.st g.w (a + 8 * i) b = true ∨ strayBeat x.st c g.w (a + 8 * i) b = true := h 0 b rfl
    rw [takeBeats]
    by_cases hstray : strayBeat x.st c g.w (a + 8 * i) b = true
    · rw [takeBeat_stray id i hg hlive hstray, hnote]
      obtain ⟨l, hl, hlc⟩ := ih (x := { x with strays := [c] }) hg hlive htail (.inr rfl)
      exact ⟨l, hl, fun _ => hlc (.inl rfl)⟩
    · rw [takeBeat_noLine id i hg (hfirst.resolve_right hstray)]
      obtain ⟨l, hl, hlc⟩ := ih hg hlive htail hx
      refine ⟨l, hl, fun hor => hlc (hor.imp (fun hs => hs) ?_)⟩
      rintro ⟨m, b', hb', hs⟩
      cases m with
      | zero =>
        have hbb : b = b' := Option.some.inj hb'
        exact absurd (hbb ▸ hs) hstray
      | succ m => exact ⟨m, b', hb', by rwa [show i + (m + 1) = i + 1 + m by omega] at hs⟩

/-! ## Header beats (R6, R7, R22) -/

theorem claimEntry_eq {k : Capture} {e : Fin 2} (he : (entryOf k e).state = .free) (hlow : e = 1 → k.e0.state ≠ .free) :
    claimEntry k = some e := by
  match e with
  | 0 => exact if_pos he
  | 1 =>
    unfold claimEntry
    rw [if_neg (hlow rfl)]
    exact if_pos he

/-- R6: a new line starts in the entry it claims. -/
theorem startLine_claims {c : Chan} {s : State} {e : Fin 2} (he : claimEntry (s.chan c).capture = some e) (j : Nat) (b : Beat) :
    ∃ new, StartedEntry j b new ∧
      startLine c j b s =
        setChan c { s.chan c with capture := { setEntry (s.chan c).capture e new with asm := .assembling j } } s := by
  refine ⟨mergeInto 0 b { Entry.empty with state := .assembling, slot := j }, mergedBeat_mergeInto 0 b rfl, ?_⟩
  unfold startLine
  rw [he]
  rfl

theorem headerBeat_starts {c : Chan} {s : State} {j : Nat} (b : Beat) (h : ∀ k, (s.chan c).capture.asm ≠ .assembling k) :
    headerBeat c j b s = startLine c j b s := by
  unfold headerBeat
  cases hk : (s.chan c).capture.asm with
  | idle => rfl
  | skipping k => rfl
  | assembling k => exact absurd hk (h k)

theorem headerBeat_merges {c : Chan} {s : State} {j : Nat} (b : Beat) (h : (s.chan c).capture.asm = .assembling j) :
    headerBeat c j b s = mergeLine c 0 b s := by
  unfold headerBeat
  rw [h]
  exact if_pos rfl

theorem routedChan_none {s : State} {b : Beat}
    (h : 3 < writtenByte b 4 ∨ 3 < writtenByte b 5 ∨
      ∀ d : Chan, d.val = 4 * writtenByte b 4 + writtenByte b 5 → replays s d = false) : routedChan s b = none := by
  unfold routedChan headerChan
  by_cases hin : writtenByte b 4 ≤ 3 ∧ writtenByte b 5 ≤ 3
  · rw [if_pos hin]
    have hall := (h.resolve_left (by omega)).resolve_left (by omega)
    exact List.find?_eq_none.2 fun d _ hd => by
      simp only [Bool.and_eq_true, decide_eq_true_eq] at hd
      rw [hall d hd.1] at hd
      exact Bool.false_ne_true hd.2
  · rw [if_neg hin]

/-- A beat of a replay slot touches the channels alone. -/
theorem replayContent_chans (j n : Nat) (b : Beat) (s : State) :
    replayContent j n b s = { s with chans := (replayContent j n b s).chans } := by
  unfold replayContent
  split
  · unfold ownBeat
    split
    · unfold mergeLine
      split
      · rfl
      · rfl
    · rfl
    · rfl
  · rfl

theorem replayContent_unassembled {j : Nat} {s : State} (n : Nat) (b : Beat)
    (h : ∀ d, replays s d = true → (s.chan d).capture.asm ≠ .assembling j) : replayContent j n b s = s := by
  unfold replayContent
  cases ho : replayOwner s j with
  | none => rfl
  | some c =>
    obtain ⟨hr, hslot⟩ := replayOwner_some ho
    have hskip := (asmSlot_eq_some.1 hslot).resolve_left (h c hr)
    simp only
    rw [ownBeat, hskip]

theorem replayContent_merges {j : Nat} {s : State} {c : Chan} (n : Nat) (b : Beat) (hr : replays s c = true)
    (ha : AloneAt s c j) (hasm : (s.chan c).capture.asm = .assembling j) : replayContent j n b s = mergeLine c n b s := by
  rw [replayContent, replayOwner_alone hr ha (asmSlot_eq_some.2 (.inl hasm))]
  simp only
  rw [ownBeat, hasm]

end Sys2Proof.Machine
end

section
/-! The writes of O16 that line capture takes whole (R5 to R7, R11, R22, R23). -/

namespace Sys2Proof.Machine

open Sys2Proof.Safety

/-- What line capture starts a write with. -/
def untaken (s : State) : Acceptance := { st := s, rewrites := [], isHeld := false, strays := [] }

theorem captureWrite_taken {id a : Nat} {beats : List Beat} {s : State} {y : Acceptance}
    (h : takeBeats id a 0 beats (untaken s) = y) :
    captureWrite id a beats s = { y with st := y.strays.foldl countStray y.st } := by
  rw [← h]
  rfl

theorem clearOfSetup_one {s : State} {a : Nat} (b : Beat) (h : ∀ o, regionOf s a ≠ .setup o) : ClearOfSetup s a [b] :=
  clearOfSetup_of_region fun i hi o => by
    have h0 : i = 0 := Nat.lt_one_iff.1 hi
    rw [h0]
    exact h o

/-- R159: a write of one beat accepted, with what line capture makes of the beat. -/
theorem afterWrite_oneBeat {mf : BitVec 8} {addr : BitVec 40} {b : Beat} {s : State} {y : Acceptance}
    (htake : takeBeat s.path.nextId 0 addr.toNat b (untaken (presented mf s)) = y) (hstrays : y.strays = []) :
    afterWrite mf addr [b] s =
      listTxn
        { id := s.path.nextId, addr := addr.toNat, body := .write (applyRewrites y.rewrites [b]), held := y.isHeld
          watch := watchNow s }
        y.st := by
  have hcapture : captureWrite s.path.nextId addr.toNat [b] (presented mf s) = y := by
    have hnone : y.strays.foldl countStray y.st = y.st := by rw [hstrays]; rfl
    rw [captureWrite_taken (a := addr.toNat) (beats := [b]) htake, hnone]
  rw [afterWrite, hcapture]

theorem exec_oneBeat {mf : BitVec 8} {addr : BitVec 40} {b : Beat} {s : State} {y : Acceptance} (hs : Accepting s)
    (hr : s.setup.command = .ready) (ha : addr.toNat % 8 = 0) (hclear : ∀ o, regionOf s addr.toNat ≠ .setup o)
    (htake : takeBeat s.path.nextId 0 addr.toNat b (untaken (presented mf s)) = y) (hstrays : y.strays = []) :
    exec (.systemWrite mf addr [b]) s =
      .next
        (listTxn
          { id := s.path.nextId, addr := addr.toNat, body := .write (applyRewrites y.rewrites [b]), held := y.isHeld
            watch := watchNow s }
          y.st) := by
  rw [exec_systemWrite (beats := [b]) hs hr ha le_rfl (by simp) (clearOfSetup_one b hclear), afterWrite_oneBeat htake hstrays]

/-! ## Writes that no line takes -/

theorem elsewhere_written {mf : BitVec 8} {addr : BitVec 40} {beats : List Beat} {s : State} (hs : Accepting s)
    (hr : s.setup.command = .ready) (ha : addr.toNat % 8 = 0) (h1 : 1 ≤ beats.length) (h16 : beats.length ≤ 16)
    (hreg : ∀ i, i < beats.length → regionOf s (addr.toNat + 8 * i) = .elsewhere) :
    exec (.systemWrite mf addr beats) s =
      .next
        (listTxn { id := s.path.nextId, addr := addr.toNat, body := .write beats, held := false, watch := watchNow s }
          (presented mf s)) := by
  refine exec_systemWrite_untaken hs hr ha h1 h16 (clearOfSetup_of_region fun i hi o => ?_)
    (captureWrite_fixed fun m b hb i => ?_)
  · rw [hreg i hi]
    exact Region.noConfusion
  · have hm : regionOf (presented mf s) (addr.toNat + 8 * m) = .elsewhere := hreg m (List.getElem?_eq_some_iff.1 hb).1
    unfold takeBeat
    simp only [hm]

theorem region_noLine {s : State} {w a : Nat} {b : Beat} (h : noLine s w a b = true) (o : Nat) : regionOf s a ≠ .setup o := by
  intro hreg
  unfold noLine at h
  rw [hreg] at h
  exact Bool.false_ne_true h

theorem region_stray {s : State} {c : Chan} {w a : Nat} {b : Beat} (h : strayBeat s c w a b = true) (o : Nat) :
    regionOf s a ≠ .setup o := by
  intro hreg
  unfold strayBeat at h
  rw [hreg] at h
  exact Bool.false_ne_true h

theorem noLine_written {mf : BitVec 8} {addr : BitVec 40} {beats : List Beat} {g : Geometry} {s : State} (hs : Accepting s)
    (hr : s.setup.command = .ready) (hg : s.setup.geometry = some g) (ha : addr.toNat % 8 = 0) (h1 : 1 ≤ beats.length)
    (h16 : beats.length ≤ 16)
    (h : ∀ (i : Nat) (b : Beat), beats[i]? = some b → noLine s g.w (addr.toNat + 8 * i) b = true) :
    exec (.systemWrite mf addr beats) s = .next (listedWrite mf addr beats s) := by
  rw [exec_systemWrite_untaken hs hr ha h1 h16
    (clearOfSetup_of_region fun i hi o => region_noLine (h i _ (List.getElem?_eq_getElem hi)) o)
    (captureWrite_fixed fun m b hb i => takeBeat_noLine s.path.nextId i hg (h m b hb)), watchNow_geometry hs.1 hg]
  rfl

theorem stray_written {mf : BitVec 8} {addr : BitVec 40} {beats : List Beat} {g : Geometry} {s : State} {c : Chan}
    (hs : Accepting s) (hr : s.setup.command = .ready) (hg : s.setup.geometry = some g) (ha : addr.toNat % 8 = 0)
    (h1 : 1 ≤ beats.length) (h16 : beats.length ≤ 16) (hlive : livesOn s c = true)
    (h : ∀ (i : Nat) (b : Beat), beats[i]? = some b →
      noLine s g.w (addr.toNat + 8 * i) b = true ∨ strayBeat s c g.w (addr.toNat + 8 * i) b = true)
    (hsome : ∃ (i : Nat) (b : Beat), beats[i]? = some b ∧ strayBeat s c g.w (addr.toNat + 8 * i) b = true) :
    exec (.systemWrite mf addr beats) s =
      .next
        { listedWrite mf addr beats s with
          status := { s.status with
            counters := s.status.counters.set c
              { s.status.counters.get c with malformed := min ((s.status.counters.get c).malformed + 1) 65535 } } } := by
  obtain ⟨l, htake, hl⟩ := takeBeats_strays (c := c) s.path.nextId addr.toNat beats (i := 0) (x := untaken (presented mf s)) hg
    hlive (fun m b hb => by rw [Nat.zero_add]; exact h m b hb) (.inl rfl)
  have hlc : l = [c] := hl (.inr (by simp only [Nat.zero_add]; exact hsome))
  have hcapture : captureWrite s.path.nextId addr.toNat beats (presented mf s) =
      { st := countStray (presented mf s) c, rewrites := [], isHeld := false, strays := [c] } := by
    rw [captureWrite_taken htake, hlc]
    rfl
  have hclear : ClearOfSetup s addr.toNat beats := clearOfSetup_of_region fun i hi o =>
    (h i _ (List.getElem?_eq_getElem hi)).elim (fun hb => region_noLine hb o) fun hb => region_stray hb o
  rw [exec_systemWrite hs hr ha h1 h16 hclear, afterWrite, hcapture, watchNow_geometry hs.1 hg]
  rfl

/-! ## Header and pixel beats merged together -/

theorem region_reaches {s : State} {c : Chan} {j o a : Nat} (h : BeatReaches s c j o a) (k : Nat) :
    regionOf s a ≠ .setup k := by
  rcases h with ⟨hreg, -⟩ | ⟨hreg, -⟩
  · rw [hreg]; exact Region.noConfusion
  · rw [hreg]; exact Region.noConfusion

theorem beats_merged {mf : BitVec 8} {addr : BitVec 40} {beats : List Beat} {g : Geometry} {s : State} {c : Chan} {j o : Nat}
    {e : Fin 2} (hs : Accepting s) (hr : s.setup.command = .ready) (hg : s.setup.geometry = some g)
    (ha : addr.toNat % 8 = 0) (h1 : 1 ≤ beats.length) (h16 : beats.length ≤ 16)
    (hreach : ∀ i, i < beats.length → BeatReaches s c j (o + 8 * i) (addr.toNat + 8 * i)) (ho : o % 8 = 0) (hlo : 8 ≤ o)
    (hhi : o + 8 * beats.length ≤ 32 + g.w) (hasm : (s.chan c).capture.asm = .assembling j)
    (he : assemblingEntry (s.chan c).capture = some e) (hwf : wfStore 0 (entryOf (s.chan c).capture e).buffer = true) :
    ∃ new, MergedBeats o beats (entryOf (s.chan c).capture e) new ∧
      exec (.systemWrite mf addr beats) s =
        .next (setChan c { s.chan c with capture := setEntry (s.chan c).capture e new } (listedWrite mf addr beats s)) := by
  obtain ⟨new, hnew, htake⟩ := takeBeats_merged (x := untaken (presented mf s)) (i := 0) s.path.nextId addr.toNat beats
    (heldW_geometry hg) (fun m hm => by rw [Nat.zero_add]; exact hreach m hm) ho hlo hhi hasm he hwf
  refine ⟨new, hnew, ?_⟩
  have hcapture : captureWrite s.path.nextId addr.toNat beats (presented mf s) =
      untaken (setChan c { s.chan c with capture := setEntry (s.chan c).capture e new } (presented mf s)) := by
    rw [captureWrite_taken htake]
    rfl
  rw [exec_systemWrite hs hr ha h1 h16 (clearOfSetup_of_region fun i hi k => region_reaches (hreach i hi) k), afterWrite,
    hcapture, watchNow_geometry hs.1 hg]
  rfl

/-! ## Header beats -/

section Headers

variable {mf : BitVec 8} {addr : BitVec 40} {b : Beat} {g : Geometry} {s : State}

theorem header_starts {c : Chan} {j : Nat} {e : Fin 2} (hs : Accepting s) (hr : s.setup.command = .ready)
    (hg : s.setup.geometry = some g) (ha : addr.toNat % 8 = 0) (hreach : HeaderReaches s c j addr.toNat b)
    (hasm : ∀ k, (s.chan c).capture.asm ≠ .assembling k) (hfree : (entryOf (s.chan c).capture e).state = .free)
    (hlow : e = 1 → (s.chan c).capture.e0.state ≠ .free) :
    ∃ new, StartedEntry j b new ∧
      exec (.systemWrite mf addr [b]) s =
        .next
          { setChan c
              { s.chan c with capture := { setEntry (s.chan c).capture e new with asm := .assembling j } }
              (listedWrite mf addr [b] s) with
            unrouted := unroutedAfter s j addr.toNat } := by
  obtain ⟨new, hnew, hstart⟩ := startLine_claims (s := { presented mf s with unrouted := unroutedAfter s j addr.toNat })
    (claimEntry_eq (k := (s.chan c).capture) hfree hlow) j b
  refine ⟨new, hnew, ?_⟩
  have htake := takeBeat_header (x := untaken (presented mf s)) s.path.nextId 0 hreach
  have hheader := headerBeat_starts (j := j) (s := { presented mf s with unrouted := unroutedAfter s j addr.toNat }) b hasm
  rw [hstart] at hheader
  rw [exec_oneBeat hs hr ha (region_reaches hreach.2.1) htake rfl, watchNow_geometry hs.1 hg]
  exact congrArg (fun t => Host.Outcome.next (listTxn
    { id := s.path.nextId, addr := addr.toNat, body := .write [b], held := false, watch := .all } t)) hheader

theorem header_merges {c : Chan} {j : Nat} {e : Fin 2} (hs : Accepting s) (hr : s.setup.command = .ready)
    (hg : s.setup.geometry = some g) (ha : addr.toNat % 8 = 0) (hreach : HeaderReaches s c j addr.toNat b)
    (hasm : (s.chan c).capture.asm = .assembling j) (he : assemblingEntry (s.chan c).capture = some e)
    (hwf : wfStore 0 (entryOf (s.chan c).capture e).buffer = true) :
    ∃ new, MergedBeat 0 b (entryOf (s.chan c).capture e) new ∧
      exec (.systemWrite mf addr [b]) s =
        .next
          { setChan c { s.chan c with capture := setEntry (s.chan c).capture e new } (listedWrite mf addr [b] s) with
            unrouted := unroutedAfter s j addr.toNat } := by
  refine ⟨_, mergedBeat_mergeInto 0 b hwf, ?_⟩
  have htake := takeBeat_header (x := untaken (presented mf s)) s.path.nextId 0 hreach
  have hheader := headerBeat_merges (j := j) (s := { presented mf s with unrouted := unroutedAfter s j addr.toNat }) b hasm
  have hmerge := hheader.trans
    (mergeLine_eq (s := { presented mf s with unrouted := unroutedAfter s j addr.toNat }) he 0 b)
  rw [exec_oneBeat hs hr ha (region_reaches hreach.2.1) htake rfl, watchNow_geometry hs.1 hg]
  exact congrArg (fun t => Host.Outcome.next (listTxn
    { id := s.path.nextId, addr := addr.toNat, body := .write [b], held := false, watch := .all } t)) hmerge

/-- R22: a header beat 0 routed nowhere makes its slot the unrouted one. -/
theorem takeBeat_unrouted {x : Acceptance} {j a : Nat} (id i : Nat) (hreg : regionOf x.st a = .replay j 0)
    (hb : b.enables ≠ 0) (hroute : routedChan x.st b = none) :
    takeBeat id i a b x =
      { x with st := latchPart .strayReplay { replayContent j 0 b x.st with unrouted := some j } } := by
  rw [takeBeat_replay id i hreg, replayBeat, beatKind_content (by omega)]
  simp only
  rw [if_neg hb, if_pos trivial, replayHeader, hroute]

theorem strayReplay_latched (s : State) :
    (latchPart .strayReplay s).status.part.latched = s.status.part.latched ||| 128 :=
  congrArg CondWord.latched (condWordOf_latchBit_same .part 7 s)

end Headers

end Sys2Proof.Machine
end

section
/-! A header beat routed nowhere (R22, R23), and a write cut in two (R5). -/

namespace Sys2Proof.Machine

open Sys2Proof.Safety

/-! ## A header beat routed nowhere -/

theorem header_unrouted {mf : BitVec 8} {addr : BitVec 40} {b : Beat} {g : Geometry} {s : State} {j : Nat} (hs : Accepting s)
    (hr : s.setup.command = .ready) (hg : s.setup.geometry = some g) (ha : addr.toNat % 8 = 0)
    (hreg : regionOf s addr.toNat = .replay j 0) (hb : b.enables ≠ 0)
    (hroute : 3 < writtenByte b 4 ∨ 3 < writtenByte b 5 ∨
      ∀ d : Chan, d.val = 4 * writtenByte b 4 + writtenByte b 5 → replays s d = false) :
    ∃ t, exec (.systemWrite mf addr [b]) s = .next t ∧ t.unrouted = some j ∧
      t.path.list = (listedWrite mf addr [b] s).path.list ∧ t.ring = s.ring ∧ t.strands = s.strands ∧
      t.engine = s.engine ∧ t.setup = s.setup ∧ t.status.part.latched = s.status.part.latched ||| 128 ∧
      t.status.words = s.status.words ∧ t.status.counters = s.status.counters ∧
      t.status.partCounters = s.status.partCounters ∧
      ((∀ d : Chan, replays s d = true → (s.chan d).capture.asm ≠ .assembling j) → t.chans = s.chans) ∧
      ∀ (c : Chan) (e : Fin 2), replays s c = true → AloneAt s c j → (s.chan c).capture.asm = .assembling j →
        assemblingEntry (s.chan c).capture = some e → wfStore 0 (entryOf (s.chan c).capture e).buffer = true →
          ∃ new, MergedBeat 0 b (entryOf (s.chan c).capture e) new ∧
            t.chans = s.chans.set c { s.chan c with capture := setEntry (s.chan c).capture e new } := by
  have htake := takeBeat_unrouted (x := untaken (presented mf s)) s.path.nextId 0 hreg hb (routedChan_none hroute)
  have hexec := exec_oneBeat hs hr ha (fun o => by rw [hreg]; exact Region.noConfusion) htake rfl
  have hu := replayContent_chans j 0 b (presented mf s)
  simp only [untaken] at hexec
  generalize hv : replayContent j 0 b (presented mf s) = v at hexec hu
  generalize hw : ({ v with unrouted := some j } : State) = w at hexec
  have hoffers : OffersOnly w (latchPart .strayReplay w) := latchPart_offersOnly _ _
  have hlatched := strayReplay_latched w
  have hwords := latchPart_words .strayReplay w
  generalize latchPart .strayReplay w = l at hexec hoffers hlatched hwords
  have hwstatus : w.status = s.status := by rw [← hw, hu]; rfl
  have hwchans : w.chans = v.chans := by rw [← hw]
  refine ⟨_, hexec, ?_, ?_, ?_, ?_, ?_, ?_, ?_, ?_, ?_, ?_, fun hnone => ?_, fun c e hrc halone hasm he hwf => ?_⟩
  · exact hoffers.unrouted.trans (by rw [← hw])
  · refine congrArg₂ (· ++ ·) (hoffers.list.trans (by rw [← hw, hu]; rfl)) ?_
    rw [watchNow_geometry hs.1 hg]
    rfl
  · exact hoffers.ring.trans (by rw [← hw, hu]; rfl)
  · exact hoffers.strands.trans (by rw [← hw, hu]; rfl)
  · exact hoffers.engine.trans (by rw [← hw, hu]; rfl)
  · exact hoffers.setup.trans (by rw [← hw, hu]; rfl)
  · exact hlatched.trans (by rw [hwstatus])
  · exact hwords.trans (by rw [hwstatus])
  · exact hoffers.counters.trans (by rw [hwstatus])
  · exact hoffers.partCounters.trans (by rw [hwstatus])
  · have hkeep : v = presented mf s := hv.symm.trans (replayContent_unassembled 0 b hnone)
    exact hoffers.chans.trans (hwchans.trans (by rw [hkeep]; rfl))
  · refine ⟨_, mergedBeat_mergeInto 0 b hwf, hoffers.chans.trans (hwchans.trans ?_)⟩
    have hmerge := (replayContent_merges (s := presented mf s) 0 b hrc halone hasm).trans
      (mergeLine_eq (s := presented mf s) he 0 b)
    rw [← hv, hmerge]
    rfl

/-! ## A write cut in two (R5) -/

theorem takeBeats_append (id a : Nat) (xs ys : List Beat) (i : Nat) (x : Acceptance) :
    takeBeats id a i (xs ++ ys) x = takeBeats id a (i + xs.length) ys (takeBeats id a i xs x) := by
  induction xs generalizing i x with
  | nil => rfl
  | cons b bs ih =>
    rw [List.cons_append, takeBeats, takeBeats, ih, List.length_cons, show i + 1 + bs.length = i + (bs.length + 1) by omega]

/-- A beat asks at most for its own place in the write to be rewritten. -/
theorem takeBeat_rewrites (id i a : Nat) (b : Beat) (x : Acceptance) :
    (takeBeat id i a b x).rewrites = x.rewrites ∨ ∃ w, (takeBeat id i a b x).rewrites = x.rewrites ++ [(i, w)] := by
  have hcomplete : ∀ c e, (completeLine c e id i x).rewrites = x.rewrites ∨
      ∃ w, (completeLine c e id i x).rewrites = x.rewrites ++ [(i, w)] := by
    intro c e
    unfold completeLine
    simp only
    split
    · exact .inr ⟨_, rfl⟩
    · exact .inl rfl
  have hown : ∀ c, (ownTrailer c id i x).rewrites = x.rewrites ∨
      ∃ w, (ownTrailer c id i x).rewrites = x.rewrites ++ [(i, w)] := by
    intro c
    unfold ownTrailer
    split
    · split
      · exact hcomplete c _
      · exact .inl rfl
    · exact .inr ⟨_, rfl⟩
    · exact .inl rfl
  have hstray : ∀ c, (noteStray c x).rewrites = x.rewrites := by
    intro c
    unfold noteStray
    split
    · rfl
    · rfl
  unfold takeBeat
  split
  · split
    · unfold lineBeat
      split
      · exact .inl rfl
      · split
        · exact hown _
        · exact .inl (hstray _)
      · split
        · exact .inl rfl
        · split
          · exact .inl rfl
          · split
            · exact .inl rfl
            · exact .inl (hstray _)
    · exact .inl rfl
  · unfold replayBeat
    split
    · exact .inl rfl
    · split
      · exact hown _
      · split
        · exact .inr ⟨_, rfl⟩
        · exact .inl rfl
    · split
      · exact .inl rfl
      · exact .inl rfl
  · exact .inl rfl
  · exact .inl rfl

theorem takeBeats_rewrites_lt (id a : Nat) (beats : List Beat) {i : Nat} {x : Acceptance}
    (hx : ∀ r ∈ x.rewrites, r.1 < i) : ∀ r ∈ (takeBeats id a i beats x).rewrites, r.1 < i + beats.length := by
  induction beats generalizing i x with
  | nil => exact hx
  | cons b bs ih =>
    have hnext : ∀ r ∈ (takeBeat id i (a + 8 * i) b x).rewrites, r.1 < i + 1 := by
      intro r hr
      rcases takeBeat_rewrites id i (a + 8 * i) b x with h | ⟨w, h⟩
      · rw [h] at hr
        exact Nat.lt_succ_of_lt (hx r hr)
      · rw [h, List.mem_append, List.mem_singleton] at hr
        rcases hr with hr | rfl
        · exact Nat.lt_succ_of_lt (hx r hr)
        · exact Nat.lt_succ_self i
    intro r hr
    have := ih hnext r hr
    rw [List.length_cons]
    omega

theorem applyRewrites_cons (r : Nat × Word64) (rs : List (Nat × Word64)) (beats : List Beat) :
    applyRewrites (r :: rs) beats = applyRewrites rs (rewriteBeat r.1 r.2 beats) := rfl

/-- The rewrites of the first beats, and those of the rest. -/
theorem applyRewrites_append (rs qs : List (Nat × Word64)) (xs ys : List Beat) (h : ∀ r ∈ rs, r.1 < xs.length) :
    applyRewrites (rs ++ qs.map fun r => (xs.length + r.1, r.2)) (xs ++ ys) = applyRewrites rs xs ++ applyRewrites qs ys := by
  induction rs generalizing xs with
  | cons r rs ih =>
    have hr : r.1 < xs.length := h r (List.mem_cons_self ..)
    have hset : rewriteBeat r.1 r.2 (xs ++ ys) = rewriteBeat r.1 r.2 xs ++ ys := List.set_append_left _ _ hr
    have hlen : (rewriteBeat r.1 r.2 xs).length = xs.length := List.length_set
    have hrest := ih (rewriteBeat r.1 r.2 xs) fun q hq => by rw [hlen]; exact h q (List.mem_cons_of_mem _ hq)
    rw [hlen] at hrest
    rw [List.cons_append, applyRewrites_cons, hset, hrest, applyRewrites_cons]
  | nil =>
    rw [List.nil_append]
    induction qs generalizing ys with
    | nil => rfl
    | cons q qs ih =>
      have hset : rewriteBeat (xs.length + q.1) q.2 (xs ++ ys) = xs ++ rewriteBeat q.1 q.2 ys := by
        unfold rewriteBeat
        rw [List.set_append_right _ _ (Nat.le_add_right _ _), Nat.add_sub_cancel_left]
      rw [List.map_cons, applyRewrites_cons, hset]
      exact ih (rewriteBeat q.1 q.2 ys)

/-- Counters equal but for MALFORMED. -/
def SameButMalformed (k l : ChanCounters) : Prop := { k with malformed := 0 } = { l with malformed := 0 }

/-- Of the rest of a write and of that rest as a write of its own: the memory paths differ, the MALFORMED counters may, and the
trailers held since, told from `held` on, stand `n` beats later. -/
def restVeil (n : Nat) (held : Chan → List HeldTrailer) : Veil where
  path _ _ := True
  held c h x := ∃ k, h = held c ++ k ∧ x = held c ++ k.map fun y => { y with beat := n + y.beat }
  counters := SameButMalformed
  shift := n
  strict := False
  offers _ _ _ _ _ := trivial
  counts f hf k l h := by
    obtain ⟨m1, h1⟩ := hf { k with malformed := 0 } k.malformed
    obtain ⟨m2, h2⟩ := hf { k with malformed := 0 } l.malformed
    have hl : l = { { k with malformed := 0 } with malformed := l.malformed } := by
      rw [show ({ k with malformed := 0 } : ChanCounters) = { l with malformed := 0 } from h]
    have hk : k = { { k with malformed := 0 } with malformed := k.malformed } := rfl
    unfold SameButMalformed
    rw [hl, hk, h1, h2]
  holds c h x k := by
    rintro ⟨l, rfl, rfl⟩
    exact ⟨l ++ [k], by rw [List.append_assoc], by rw [List.map_append, List.append_assoc]; rfl⟩

/-- R11: strays counted change the MALFORMED counters alone. -/
theorem countStrays_malformed (cs : List Chan) (s : State) :
    ∃ k : Bank16 ChanCounters, cs.foldl countStray s = { s with status := { s.status with counters := k } } ∧
      ∀ c, SameButMalformed (k.get c) (s.status.counters.get c) := by
  induction cs generalizing s with
  | nil => exact ⟨s.status.counters, rfl, fun _ => rfl⟩
  | cons d ds ih =>
    obtain ⟨k, hk, hsame⟩ := ih (countStray s d)
    refine ⟨k, hk, fun c => (hsame c).trans ?_⟩
    change SameButMalformed ((s.status.counters.set d _).get c) _
    by_cases hc : c = d
    · rw [hc, Bank16.get_set_same]
      rfl
    · rw [Bank16.get_set_other _ _ hc]
      rfl

end Sys2Proof.Machine
end

section
/-! The beats of a write are taken in ascending address order, each whole before the next (R5), and the writes that no line completes
(R159, R160). -/

namespace Sys2Proof.Machine

open Sys2Proof.Safety

theorem alike_rest (n : Nat) {x : State} {mf : BitVec 8} (hmf : x.mfIn = mf) (p : Path) {k : Bank16 ChanCounters}
    (hk : ∀ c, SameButMalformed (k.get c) (x.status.counters.get c)) :
    Alike (restVeil n fun c => (x.chan c).held)
      { x with mfIn := mf, path := p, status := { x.status with counters := k } } x := by
  subst hmf
  exact ⟨trivial, fun c => ⟨(x.chan c).held, rfl, [], (List.append_nil _).symm, (List.append_nil _).symm⟩, hk, rfl, rfl⟩

/-- What a write cut in two leaves of a channel: that of the second write, its trailers told in their places in the whole. -/
theorem chan_of_rest {n : Nat} {held : Chan → List HeldTrailer} {s t : State} (h : Alike (restVeil n held) s t) (c : Chan) :
    t.chan c =
      { s.chan c with
        held := held c ++ ((s.chan c).held.drop (held c).length).map fun y => { y with beat := n + y.beat } } := by
  obtain ⟨x, hx, k, hs, hxk⟩ := h.chan c
  rw [hx, hs, hxk, List.drop_left]

/-- What two states alike share, but for the channels and what is counted. -/
theorem rest_shared {v : Veil} {s t : State} (h : Alike v s t) :
    t.unrouted = s.unrouted ∧ t.strands = s.strands ∧ t.ring = s.ring ∧ t.engine = s.engine ∧ t.setup = s.setup ∧
      t.status.part = s.status.part ∧ t.status.partCounters = s.status.partCounters ∧ t.status.words = s.status.words :=
  ⟨h.unrouted, h.strands, h.ring, h.engine, h.setup, (congrArg Status.part h.status :),
    (congrArg Status.partCounters h.status :), (congrArg Status.words h.status :)⟩

theorem write_cut {mf : BitVec 8} {addr : BitVec 40} {xs ys : List Beat} {s t1 t2 : State} (hs : Accepting s)
    (hr : s.setup.command = .ready) (ha : addr.toNat % 8 = 0) (hxs : 1 ≤ xs.length) (hys : 1 ≤ ys.length)
    (h16 : xs.length + ys.length ≤ 16) (hend : addr.toNat + 8 * (xs.length + ys.length) ≤ 1099511627776)
    (hout : addr.toNat + 8 * (xs.length + ys.length) ≤ setupBase s.setup.strap ∨
      setupBase s.setup.strap + setupSize ≤ addr.toNat)
    (h1 : exec (.systemWrite mf addr xs) s = .next t1)
    (h2 : exec (.systemWrite mf (addr + BitVec.ofNat 40 (8 * xs.length)) ys) { t1 with path := s.path } = .next t2) :
    ∃ t x y xs' ys', exec (.systemWrite mf addr (xs ++ ys)) s = .next t ∧
      t1.path.list = s.path.list ++ [x] ∧ x.body = .write xs' ∧
      t2.path.list = s.path.list ++ [y] ∧ y.body = .write ys' ∧
      t.path.list = s.path.list ++ [{ x with body := .write (xs' ++ ys'), held := x.held || y.held }] ∧
      (∀ c : Chan,
        t.chan c =
          { t2.chan c with
            held := (t1.chan c).held ++
              ((t2.chan c).held.drop (t1.chan c).held.length).map fun h => { h with beat := xs.length + h.beat } }) ∧
      t.unrouted = t2.unrouted ∧ t.strands = t2.strands ∧ t.ring = t2.ring ∧ t.engine = t2.engine ∧
      t.setup = t2.setup ∧ t.status.part.latched = t2.status.part.latched ∧
      t.status.partCounters = t2.status.partCounters ∧
      ∀ c : Chan,
        (t.status.words.get c).latched = (t2.status.words.get c).latched ∧
          { t.status.counters.get c with malformed := 0 } = { t2.status.counters.get c with malformed := 0 } := by
  have haddr : (addr + BitVec.ofNat 40 (8 * xs.length)).toNat = addr.toNat + 8 * xs.length := by
    rw [BitVec.toNat_add, BitVec.toNat_ofNat]
    omega
  have hlen : (xs ++ ys).length = xs.length + ys.length := List.length_append
  -- the whole, and its two parts, as line capture takes them
  have hclear : ∀ (u : State) (a : Nat) (beats : List Beat), u.setup = s.setup → addr.toNat ≤ a →
      a + 8 * beats.length ≤ addr.toNat + 8 * (xs.length + ys.length) → ClearOfSetup u a beats := by
    intro u a beats hu hlo hhi i hi hin
    rw [hu] at hin
    omega
  have hfirst := exec_systemWrite (mf := mf) hs hr ha hxs (by omega) (hclear s addr.toNat xs rfl le_rfl (by omega))
  have hwhole := exec_systemWrite (mf := mf) (beats := xs ++ ys) hs hr ha (by omega) (by omega)
    (hclear s addr.toNat (xs ++ ys) rfl le_rfl (by omega))
  obtain rfl : afterWrite mf addr xs s = t1 := Host.Outcome.next.inj (hfirst.symm.trans h1)
  obtain ⟨x1, hx1⟩ : ∃ x1, takeBeats s.path.nextId addr.toNat 0 xs (untaken (presented mf s)) = x1 := ⟨_, rfl⟩
  have hcap1 := captureWrite_taken hx1
  have hlist1 := captureWrite_list s.path.nextId addr.toNat xs (presented mf s)
  have hsteady : Steady (presented mf s) x1.st := by rw [← hx1]; exact takeBeats_steady _ _ _ _ (untaken (presented mf s))
  have hplaces : ∀ r ∈ x1.rewrites, r.1 < xs.length := by
    have := takeBeats_rewrites_lt s.path.nextId addr.toNat xs (i := 0) (x := untaken (presented mf s))
      (fun r hr => absurd hr List.not_mem_nil)
    rw [hx1, Nat.zero_add] at this
    exact this
  obtain ⟨k, hk, hsame⟩ := countStrays_malformed x1.strays x1.st
  rw [hcap1] at hlist1
  rw [hk] at hcap1 hlist1
  unfold afterWrite at h2 hwhole ⊢
  rw [hcap1] at h2 ⊢
  obtain ⟨s2, hs2⟩ : ∃ s2 : State, s2 = { x1.st with path := s.path, status := { x1.st.status with counters := k } } :=
    ⟨_, rfl⟩
  have h2' : exec (.systemWrite mf (addr + BitVec.ofNat 40 (8 * xs.length)) ys) s2 = .next t2 := by rw [hs2]; exact h2
  have hsetup2 : s2.setup = s.setup := by rw [hs2]; exact hsteady.setup
  have hpath2 : s2.path = s.path := by rw [hs2]
  have hsecond := exec_systemWrite (mf := mf) (addr := addr + BitVec.ofNat 40 (8 * xs.length)) (beats := ys) (s := s2)
    ⟨by rw [hs2]; exact hsteady.resetLine.trans hs.1, by rw [hpath2]; exact hs.2.1, by rw [hpath2]; exact hs.2.2⟩
    (by rw [hsetup2]; exact hr) (by rw [haddr]; omega) hys (by omega)
    (by rw [haddr]; exact hclear s2 _ ys hsetup2 (by omega) (by omega))
  obtain rfl : afterWrite mf (addr + BitVec.ofNat 40 (8 * xs.length)) ys s2 = t2 :=
    Host.Outcome.next.inj (hsecond.symm.trans h2')
  obtain ⟨x2, hx2⟩ : ∃ x2, takeBeats s.path.nextId (addr.toNat + 8 * xs.length) 0 ys (untaken (presented mf s2)) = x2 :=
    ⟨_, rfl⟩
  have hcap2 := captureWrite_taken hx2
  have hlist2 := captureWrite_list s.path.nextId (addr.toNat + 8 * xs.length) ys (presented mf s2)
  obtain ⟨y, hy⟩ : ∃ y, takeBeats s.path.nextId addr.toNat 0 (xs ++ ys) (untaken (presented mf s)) = y := ⟨_, rfl⟩
  have hcapW := captureWrite_taken hy
  have hlistW := captureWrite_list s.path.nextId addr.toNat (xs ++ ys) (presented mf s)
  -- the rest of the whole runs as the second write does
  have hstart : AlikeTaken (restVeil xs.length fun c => (x1.st.chan c).held) x1.rewrites x1.isHeld
      (untaken (presented mf s2)) x1 := by
    refine ⟨?_, (List.append_nil _).symm, (Bool.or_false _).symm, fun h => h.elim⟩
    have hmf : x1.st.mfIn = mf := hsteady.mfIn
    rw [hs2]
    exact alike_rest xs.length hmf _ hsame
  have hrest : AlikeTaken (restVeil xs.length fun c => (x1.st.chan c).held) x1.rewrites x1.isHeld x2 y := by
    have h := hstart.takeBeats s.path.nextId addr.toNat ys 0
    have happ : y = takeBeats s.path.nextId addr.toNat (xs.length + 0) ys x1 := by
      rw [← hy, takeBeats_append, hx1, Nat.zero_add, Nat.add_zero]
    rw [happ, ← hx2]
    exact h
  obtain ⟨k2, hk2, hsame2⟩ := countStrays_malformed x2.strays x2.st
  obtain ⟨kW, hkW, hsameW⟩ := countStrays_malformed y.strays y.st
  have hchan := chan_of_rest hrest.st
  obtain ⟨hun, hstr, hring, heng, hset, hpart, hpc, hwords⟩ := rest_shared hrest.st
  rw [hcap2] at hlist2
  rw [hk2] at hcap2 hlist2
  rw [hcapW] at hlistW
  rw [hkW] at hcapW hlistW
  unfold afterWrite
  rw [haddr, hpath2, hcap2]
  rw [hcapW] at hwhole
  refine ⟨_, { id := s.path.nextId, addr := addr.toNat, body := .write (applyRewrites x1.rewrites xs), held := x1.isHeld
               watch := watchNow s },
    { id := s.path.nextId, addr := addr.toNat + 8 * xs.length, body := .write (applyRewrites x2.rewrites ys)
      held := x2.isHeld, watch := watchNow s2 }, _, _, hwhole,
    congrArg (fun l => l ++ _) hlist1, rfl, ?_, rfl, ?_, hchan, hun, hstr, hring, heng, hset,
    congrArg CondWord.latched hpart, hpc, fun c => ⟨?_, ?_⟩⟩
  · exact congrArg (fun l => l ++ _) (hlist2.trans (show s2.path.list = s.path.list by rw [hpath2]))
  · have hbeats : applyRewrites y.rewrites (xs ++ ys) = applyRewrites x1.rewrites xs ++ applyRewrites x2.rewrites ys := by
      rw [hrest.rewrites]
      exact applyRewrites_append _ _ _ _ hplaces
    refine congrArg₂ (· ++ ·) hlistW ?_
    rw [hbeats, hrest.isHeld]
  · exact congrArg (fun b : Bank16 CondWord => (b.get c).latched) hwords
  · exact (hsameW c).trans (((hrest.st.counters c).symm).trans (hsame2 c).symm)

/-- Settles O16: line capture takes a write beat by beat; what no line takes it leaves, what a line takes goes into its entry. -/
theorem unwatchedWriteIsForwarded : Obligations.UnwatchedWriteIsForwarded := by
  refine ⟨fun mf addr beats s ha h1 h16 hport hroom => ⟨fun hline hr hreg => ?_, fun hline => ?_⟩,
    fun mf addr beats g s hs hr hg ha h1 h16 => ⟨noLine_written hs hr hg ha h1 h16,
      fun c hlive h hsome => stray_written hs hr hg ha h1 h16 hlive h hsome,
      fun c j o e hreach ho hlo hhi hasm he hwf => beats_merged hs hr hg ha h1 h16 hreach ho hlo hhi hasm he hwf⟩,
    fun mf addr b g s hs hr hg ha => ⟨fun j hreg hb hroute => header_unrouted hs hr hg ha hreg hb hroute,
      fun c j e hreach hasm hfree hlow => header_starts hs hr hg ha hreach hasm hfree hlow,
      fun c j e hreach hasm he hwf => header_merges hs hr hg ha hreach hasm he hwf⟩,
    fun mf addr xs ys s t1 t2 hs hr ha hxs hys h16 hend hout h1 h2 =>
      write_cut hs hr ha hxs hys h16 hend hout h1 h2⟩
  · rw [elsewhere_written ⟨hline, hport, hroom⟩ hr ha h1 h16 hreg, watchNow_eq, if_neg (by rw [hline]; exact Bool.false_ne_true)]
    rfl
  · rw [execSystemWrite_wellFormed ha h1 h16, presentTxn_room (s := { s with mfIn := mf }) hport hroom]
    refine congrArg Host.Outcome.next ?_
    unfold acceptTxn
    exact if_pos hline

end Sys2Proof.Machine
end

section
/-! The checks on a completed line, its class and its place in the sequence (R12, R13, R15), as the statements tell them. -/

namespace Sys2Proof.Machine

open Sys2Proof.Safety

/-! ## Malformed lines (R12) -/

theorem behind_iff {a b : Word32} : behind a b = true ↔ 2147483648 ≤ (a - b).toNat := by
  rw [behind, atOrAhead, distance, Bool.not_eq_true', decide_eq_false_iff_not, Nat.not_lt]

theorem sequenceFails_eq (last : Option Word32) (e : Entry) : sequenceFails last e = sequenceTestFails last (lineSeq e) := by
  cases last with
  | none => rfl
  | some q =>
    rw [Bool.eq_iff_iff]
    simp only [sequenceFails, sequenceTestFails, Bool.or_eq_true, decide_eq_true_eq, behind_iff]
    rfl

theorem otherwiseMalformed_iff {w : Nat} {c : Chan} {e : Entry} : otherwiseMalformed w c e = true ↔ OtherCause w c e := by
  have hheader : headerMissing e = true ↔ ∃ i : Fin 4, i.val ∉ e.beatMap := by
    simp only [headerMissing, List.any_eq_true, List.mem_range, Bool.not_eq_true', List.contains_eq_mem, decide_eq_false_iff_not]
    exact ⟨fun ⟨i, hi, hm⟩ => ⟨⟨i, hi⟩, hm⟩, fun ⟨i, hm⟩ => ⟨i.val, i.isLt, hm⟩⟩
  have hpixel : pixelMissing w e = true ↔ lineHot e = true ∧ ∃ i : Fin (w / 8), 4 + i.val ∉ e.beatMap := by
    simp only [pixelMissing, Bool.and_eq_true, List.any_eq_true, List.mem_range, Bool.not_eq_true', List.contains_eq_mem,
      decide_eq_false_iff_not]
    exact and_congr_right fun _ => ⟨fun ⟨i, hi, hm⟩ => ⟨⟨i, hi⟩, hm⟩, fun ⟨i, hm⟩ => ⟨i.val, i.isLt, hm⟩⟩
  simp only [otherwiseMalformed, Bool.or_eq_true, hheader, hpixel, decide_eq_true_eq, or_assoc]

section Placing

variable (s : State) (c : Chan) (en : Entry)

theorem isMalformed_iff : isMalformed (heldW s) c (s.chan c).capture.lastSeq en = true ↔ MalformedLine s c en := by
  rw [isMalformed, Bool.or_eq_true, sequenceFails_eq, otherwiseMalformed_iff]

/-! ## The place in the sequence (R13) -/

theorem recordedGap_eq : recordedGap (heldW s) c (s.chan c).capture en = gapOf s c en := by
  unfold recordedGap gapOf
  refine if_congr (isMalformed_iff s c en) rfl ?_
  unfold lineGap distance
  cases (s.chan c).capture.lastSeq <;> rfl

theorem placeLine_eq :
    placeLine (heldW s) c en (s.chan c).capture =
      { (s.chan c).capture with lastSeq := lastSeqAfter s c en, unplaced := unplacedAfter s c en } := by
  unfold placeLine lastSeqAfter unplacedAfter
  rw [sequenceFails_eq]
  by_cases hseq : sequenceTestFails (s.chan c).capture.lastSeq (lineSeq en) = true
  · rw [if_pos hseq, if_pos (.inl hseq), if_pos hseq]
  · rw [if_neg hseq, if_neg hseq]
    by_cases hother : OtherCause (heldW s) c en
    · rw [if_pos (otherwiseMalformed_iff.2 hother), if_pos (.inr hother), if_pos hother]
      rfl
    · rw [if_neg (mt otherwiseMalformed_iff.1 hother), if_neg (not_or_intro hseq hother), if_neg hother]

end Placing

theorem wellPlaced_after {s : State} {c : Chan} {en : Entry} (h : ¬MalformedLine s c en) :
    lastSeqAfter s c en = some (lineSeq en) ∧ unplacedAfter s c en = 0 := by
  obtain ⟨hseq, hother⟩ := not_or.1 h
  exact ⟨if_neg h, by rw [unplacedAfter, if_neg hseq, if_neg hother]⟩

/-! ## The class (R15) -/

theorem holdAsserted_iff {s : State} (hline : s.resetLine = false) (k : Strand) :
    holdAsserted s k = true ↔ StrandHeld s.mfIn s k := by
  have hfunction : ∀ i, mfFunction s i = 32 + k.val ↔
      (s.setup.geometry.bind fun g => g.mf[i]?) = some (32 + k.val) := by
    intro i
    unfold mfFunction
    cases s.setup.geometry with
    | none => simp; omega
    | some g =>
      simp only [Option.bind_some]
      cases g.mf[i]? with
      | none => simp; omega
      | some v => simp
  simp only [holdAsserted, hline, Bool.not_false, Bool.true_and, List.any_eq_true, List.mem_range, Bool.and_eq_true,
    decide_eq_true_eq, hfunction]
  exact ⟨fun ⟨i, hi, hf, hl⟩ => ⟨⟨i, hi⟩, hl, hf⟩, fun ⟨i, hl, hf⟩ => ⟨i.val, i.isLt, hf, hl⟩⟩

theorem isReverse_iff {s : State} {c : Chan} {en : Entry} : isReverse s c en = true ↔ BehindLast s c en := by
  rw [isReverse, Bool.and_eq_true, behind_iff]

/-- R15: the class is the one that the statement's row gives. -/
theorem classOf_given {mf : BitVec 8} {s : State} {c : Chan} {en : Entry} {k : LineClass} (hmf : s.mfIn = mf)
    (hline : s.resetLine = false) (h : ClassGiven mf s c en k) : classOf s c en = k := by
  subst hmf
  have hheld := holdAsserted_iff hline (strandOf c)
  have hmal := isMalformed_iff s c en
  unfold classOf
  cases k with
  | malformed => rw [if_pos (hmal.2 h)]
  | noBillet =>
    obtain ⟨hm, hhot⟩ := h
    rw [if_neg (mt hmal.1 hm), hhot]
    rfl
  | lamp =>
    obtain ⟨hm, hhot, hlamp⟩ := h
    rw [if_neg (mt hmal.1 hm), hhot, hlamp]
    rfl
  | held =>
    obtain ⟨hm, hhot, hlamp, hh⟩ := h
    rw [if_neg (mt hmal.1 hm), hhot, hlamp, hheld.2 hh]
    rfl
  | reverse =>
    obtain ⟨hm, hhot, hlamp, hh, hr⟩ := h
    rw [if_neg (mt hmal.1 hm), hhot, hlamp, Bool.eq_false_iff.2 (mt hheld.1 hh), isReverse_iff.2 hr]
    rfl
  | toAnalyse =>
    obtain ⟨hm, hhot, hlamp, hh, hr⟩ := h
    rw [if_neg (mt hmal.1 hm), hhot, hlamp, Bool.eq_false_iff.2 (mt hheld.1 hh), Bool.eq_false_iff.2 (mt isReverse_iff.1 hr)]
    rfl

/-- R12: a line is of class MALFORMED exactly where one of the causes holds. -/
theorem malformed_iff_of_given {mf : BitVec 8} {s : State} {c : Chan} {en : Entry} {k : LineClass}
    (h : ClassGiven mf s c en k) : k = .malformed ↔ MalformedLine s c en := by
  cases k with
  | malformed => exact iff_of_true rfl h
  | noBillet => exact iff_of_false LineClass.noConfusion h.1
  | lamp => exact iff_of_false LineClass.noConfusion h.1
  | held => exact iff_of_false LineClass.noConfusion h.1
  | reverse => exact iff_of_false LineClass.noConfusion h.1
  | toAnalyse => exact iff_of_false LineClass.noConfusion h.1

/-! ## The verdict given at once (R19) -/

theorem plainWord_eq (v : Verdict) : plainWord v = BitVec.ofNat 64 (verdictCode v) := by
  cases v <;> decide

theorem classVerdict_code {k : LineClass} {code : Nat} (h : atOnceCode k = some code) :
    ∃ v, classVerdict k = some v ∧ verdictCode v = code := by
  cases k with
  | malformed => exact ⟨.malformed, rfl, Option.some.inj h⟩
  | noBillet => exact ⟨.noBillet, rfl, Option.some.inj h⟩
  | lamp => exact ⟨.lamp, rfl, Option.some.inj h⟩
  | held => exact ⟨.held, rfl, Option.some.inj h⟩
  | reverse => exact ⟨.reverse, rfl, Option.some.inj h⟩
  | toAnalyse => cases h

/-! ## The strand's count (R147, R150, R151) -/

theorem countLine_eq (now count : Word32) (k : StrandState) : countLine now count k = strandAfter now count k := by
  have hbehind : (fun m : Mark => !atOrAhead count m.trigger) =
      fun m : Mark => decide (2147483648 ≤ (count - m.trigger).toNat) := by
    funext m
    rw [atOrAhead, distance, ← decide_not]
    exact decide_eq_decide.2 Nat.not_lt
  have hdue : k.queue.any (fun m => atOrAhead count m.trigger) = true ↔
      ¬(k.queue.filter fun m => decide (2147483648 ≤ (count - m.trigger).toNat)) = k.queue := by
    rw [← hbehind, List.filter_eq_self, List.any_eq_true]
    push Not
    simp only [Bool.not_eq_true', Bool.not_eq_false, ne_eq]
  have hpulse : (if k.queue.any (fun m => atOrAhead count m.trigger) = true then some (firePulse now k) else k.pulse) =
      (strandAfter now count k).pulse := by
    unfold strandAfter
    simp only
    by_cases hleft : (k.queue.filter fun m => decide (2147483648 ≤ (count - m.trigger).toNat)) = k.queue
    · rw [if_neg (fun h => hdue.1 h hleft), if_pos hleft]
    · rw [if_pos (hdue.2 hleft), if_neg hleft, firePulse]
      cases k.pulse with
      | none => rfl
      | some e =>
        have hlater : ahead (now + BitVec.ofNat 32 k.pulseMs) e = true ↔
            1 ≤ (now + BitVec.ofNat 32 k.pulseMs - e).toNat ∧ (now + BitVec.ofNat 32 k.pulseMs - e).toNat < 2147483648 := by
          rw [ahead, atOrAhead, Bool.and_eq_true, decide_eq_true_eq, decide_eq_true_eq, and_comm, distance]
          exact and_congr_left fun _ => Nat.one_le_iff_ne_zero.symm
        simp only
        rw [apply_ite some]
        exact if_congr hlater rfl rfl
  unfold countLine
  simp only
  rw [hpulse]
  have hsettle := settleMerge_eq (k.queue.filter fun m => !atOrAhead count m.trigger)
    { k with lastCount := some count, pulse := (strandAfter now count k).pulse }
  refine hsettle.trans ?_
  rw [hbehind]
  rfl

end Sys2Proof.Machine
end

section
/-! What the completion of a line does whatever becomes of its trailer (R9, R12, R13, R31, R147). -/

namespace Sys2Proof.Machine

open Sys2Proof.Safety

/-! ## The report (R31) -/

theorem reportCompletion_eq (c : Chan) (s : State) : reportCompletion c s = setChan c (reported s.ms (s.chan c)) s := by
  unfold reportCompletion reported
  cases (s.chan c).record.state with
  | inspecting => rfl
  | stalled => rfl
  | off => exact (setChan_self c s).symm
  | waiting => exact (setChan_self c s).symm
  | passOnly => exact (setChan_self c s).symm

theorem reported_rest (now : Word32) (ch : Channel) :
    (reported now ch).capture = ch.capture ∧ (reported now ch).held = ch.held ∧ (reported now ch).tracks = ch.tracks ∧
      (reported now ch).band = ch.band ∧ (reported now ch).background = ch.background ∧
      (reported now ch).params = ch.params ∧ (reported now ch).waiting = ch.waiting ∧
      (reported now ch).record =
        { ch.record with
          state := (reported now ch).record.state
          stall := (reported now ch).record.stall
          abandon := (reported now ch).record.abandon } := by
  unfold reported
  split
  · exact ⟨rfl, rfl, rfl, rfl, rfl, rfl, rfl, rfl⟩
  · split
    · exact ⟨rfl, rfl, rfl, rfl, rfl, rfl, rfl, rfl⟩
    · exact ⟨rfl, rfl, rfl, rfl, rfl, rfl, rfl, rfl⟩

/-- R31: a channel with no billet open is left as it is. -/
theorem reported_closed {s : State} {c : Chan} (h : billetOpen s c = false) (now : Word32) :
    reported now (s.chan c) = s.chan c := by
  unfold billetOpen at h
  unfold reported
  cases hs : (s.chan c).record.state with
  | inspecting => rw [hs] at h; exact Bool.noConfusion h
  | stalled => rw [hs] at h; exact Bool.noConfusion h
  | off => rfl
  | waiting => rfl
  | passOnly => rfl

/-- R31: with a billet open the channel is INSPECTING after the report. -/
theorem reported_open {s : State} {c : Chan} (h : billetOpen s c = true) (now : Word32) :
    (reported now (s.chan c)).record.state = .inspecting := by
  unfold billetOpen at h
  unfold reported
  cases hs : (s.chan c).record.state with
  | inspecting => exact hs
  | stalled => rfl
  | off => rw [hs] at h; exact Bool.noConfusion h
  | waiting => rw [hs] at h; exact Bool.noConfusion h
  | passOnly => rw [hs] at h; exact Bool.noConfusion h

/-! ## The conditions (R12, R13) -/

theorem noBits_or (x : BitVec 16) : 0 ||| x = x := BitVec.zero_or

theorem or_noBits (x : BitVec 16) : x ||| 0 = x := BitVec.or_zero

/-- From `s` to `t` one condition of channel `c` is latched, and nothing else changes but the outgoing writes and the summary. -/
structure Latches (c : Chan) (bits : BitVec 16) (s t : State) : Prop where
  offers : OffersOnly s t
  others : ∀ d, d ≠ c → t.status.words.get d = s.status.words.get d
  latched : (t.status.words.get c).latched = (s.status.words.get c).latched ||| bits
  part : t.status.part = s.status.part

theorem latchChan_latches (c : Chan) (k : ChanCond) (s : State) :
    Latches c (condSet (chanCondBit k)) s (latchChan c k s) where
  offers := latchChan_offersOnly c k s
  others d hd := condWordOf_latchBit_other (o := .chan c) (p := .chan d) (chanCondBit k) s fun h => hd (Owner.chan.inj h)
  latched := latchChan_rest c k s
  part := condWordOf_latchBit_other (o := .chan c) (p := .part) (chanCondBit k) s Owner.noConfusion

/-- From `s` to `t` channel `c`'s completion is counted and its conditions latched. -/
structure Conditions (c : Chan) (bits : BitVec 16) (malformed : Nat) (s t : State) : Prop where
  chans : t.chans = s.chans
  unrouted : t.unrouted = s.unrouted
  ring : t.ring = s.ring
  strands : t.strands = s.strands
  others : ∀ d, d ≠ c → t.status.words.get d = s.status.words.get d
  latched : (t.status.words.get c).latched = (s.status.words.get c).latched ||| bits
  part : t.status.part = s.status.part
  counters : t.status.counters = s.status.counters.set c { s.status.counters.get c with malformed := malformed }
  partCounters : t.status.partCounters = s.status.partCounters

theorem Conditions.latch {c : Chan} {b1 b2 : BitVec 16} {n : Nat} {s t u : State} (h : Conditions c b1 n s t)
    (k : Latches c b2 t u) : Conditions c (b1 ||| b2) n s u where
  chans := k.offers.chans.trans h.chans
  unrouted := k.offers.unrouted.trans h.unrouted
  ring := k.offers.ring.trans h.ring
  strands := k.offers.strands.trans h.strands
  others d hd := (k.others d hd).trans (h.others d hd)
  latched := by rw [k.latched, h.latched, BitVec.or_assoc]
  part := k.part.trans h.part
  counters := k.offers.counters.trans h.counters
  partCounters := k.offers.partCounters.trans h.partCounters

theorem conditions_none (c : Chan) (s : State) : Conditions c 0 (s.status.counters.get c).malformed s s where
  chans := rfl
  unrouted := rfl
  ring := rfl
  strands := rfl
  others _ _ := rfl
  latched := (BitVec.or_zero).symm
  part := rfl
  counters := (Bank16.set_get_self s.status.counters c).symm
  partCounters := rfl

theorem countMalformed_conditions (c : Chan) (s : State) :
    Conditions c 4 (min ((s.status.counters.get c).malformed + 1) 65535) s (countMalformed c s) := by
  have hcount : Conditions c 0 (min ((s.status.counters.get c).malformed + 1) 65535) s
      (modCounters c (fun k => { k with malformed := sat16 (k.malformed + 1) }) s) :=
    ⟨rfl, rfl, rfl, rfl, fun _ _ => rfl, (BitVec.or_zero).symm, rfl, rfl, rfl⟩
  have h := hcount.latch (latchChan_latches c .malformed _)
  rw [noBits_or] at h
  exact h

theorem completionConditions_conditions {c : Chan} {k : LineClass} {en : Entry} {s s0 : State}
    (hk : k = .malformed ↔ MalformedLine s0 c en) :
    Conditions c (completionBits s0 c en)
      (if MalformedLine s0 c en then min ((s.status.counters.get c).malformed + 1) 65535
        else (s.status.counters.get c).malformed) s (completionConditions c k (gapOf s0 c en) s) := by
  have hfirst : Conditions c (if MalformedLine s0 c en then 4 else 0)
      (if MalformedLine s0 c en then min ((s.status.counters.get c).malformed + 1) 65535
        else (s.status.counters.get c).malformed) s (if k = .malformed then countMalformed c s else s) := by
    by_cases hm : MalformedLine s0 c en
    · rw [if_pos hm, if_pos hm, if_pos (hk.2 hm)]
      exact countMalformed_conditions c s
    · rw [if_neg hm, if_neg hm, if_neg (mt hk.1 hm)]
      exact conditions_none c s
  unfold completionConditions completionBits
  simp only
  by_cases hgap : 1 ≤ gapOf s0 c en
  · rw [if_pos hgap, if_pos hgap]
    exact hfirst.latch (latchChan_latches c .lineLoss _)
  · rw [if_neg hgap, if_neg hgap, or_noBits]
    exact hfirst

/-! ## The entry queued, and what else the completion does (R9, R13, R16) -/

/-- R9, R13, R16, R31: channel `c` with the completed line of entry `e`, of class `k`, at the tail of its queue. -/
def completedChan (s : State) (c : Chan) (e : Fin 2) (en : Entry) (k : LineClass) : Channel :=
  { reported s.ms (s.chan c) with
    capture :=
      { setEntry (s.chan c).capture e { en with state := .queued, cls := some k, gap := gapOf s c en } with
        asm := .idle
        queue := (s.chan c).capture.queue ++ [e]
        lastSeq := lastSeqAfter s c en
        unplaced := unplacedAfter s c en } }

/-- From `s` to `t` the line of entry `e` of channel `c`, `en` as it stood, has been completed with class `k`. -/
structure Completed (c : Chan) (e : Fin 2) (en : Entry) (k : LineClass) (s t : State) : Prop where
  only : OnlyChan c s t
  chan : t.chan c = completedChan s c e en k
  unrouted : t.unrouted = s.unrouted
  ring : t.ring = s.ring
  strands : t.strands = strandsCounted s c en
  others : ∀ d, d ≠ c → t.status.words.get d = s.status.words.get d
  latched : (t.status.words.get c).latched = (s.status.words.get c).latched ||| completionBits s c en
  part : t.status.part = s.status.part
  counters : t.status.counters =
    s.status.counters.set c
      { s.status.counters.get c with
        malformed :=
          if MalformedLine s c en then min ((s.status.counters.get c).malformed + 1) 65535
          else (s.status.counters.get c).malformed }
  partCounters : t.status.partCounters = s.status.partCounters

theorem completeEffects_completed {c : Chan} {e : Fin 2} {en : Entry} {k : LineClass} {s : State}
    (hen : en = entryOf (s.chan c).capture e) (hk : k = .malformed ↔ MalformedLine s c en) :
    Completed c e en k s (completeEffects c e k s) := by
  obtain ⟨u, hu⟩ : ∃ u, u = modCapture c (placeLine (heldW s) c en) (reportCompletion c s) := ⟨_, rfl⟩
  have hplaced : placeLine (heldW s) c en (reported s.ms (s.chan c)).capture =
      { (s.chan c).capture with lastSeq := lastSeqAfter s c en, unplaced := unplacedAfter s c en } := by
    rw [(reported_rest s.ms (s.chan c)).1, placeLine_eq]
  have husame : u = setChan c
      { reported s.ms (s.chan c) with
        capture := { (s.chan c).capture with lastSeq := lastSeqAfter s c en, unplaced := unplacedAfter s c en } } s := by
    rw [hu, reportCompletion_eq, modCapture, modChan, chan_setChan_same, setChan_setChan, hplaced]
  obtain ⟨v, hv⟩ : ∃ v, v = completionConditions c k (gapOf s c en) u := ⟨_, rfl⟩
  have hcond := completionConditions_conditions (s := u) hk
  rw [← hv] at hcond
  have hrun : completeEffects c e k s = handCount c k (lineCount en) (enqueueEntry c e k (gapOf s c en) v) := by
    rw [hv, hu]
    unfold completeEffects
    simp only
    rw [← hen, recordedGap_eq]
  have hmode : ((enqueueEntry c e k (gapOf s c en) v).chan c).record.mode = (s.chan c).record.mode := by
    have hreported : (reported s.ms (s.chan c)).record.mode = (s.chan c).record.mode := by
      rw [(reported_rest s.ms (s.chan c)).2.2.2.2.2.2.2]
    rw [enqueueEntry, modCapture_chan_same]
    simp only
    rw [chan_of_chans hcond.chans, husame, chan_setChan_same]
    exact hreported
  have hchan : (enqueueEntry c e k (gapOf s c en) v).chan c = completedChan s c e en k := by
    rw [enqueueEntry, modCapture_chan_same, chan_of_chans hcond.chans, husame, chan_setChan_same]
    subst hen
    match e with
    | 0 => rfl
    | 1 => rfl
  have hvs : v.strands = s.strands ∧ v.ms = s.ms := by
    refine ⟨hcond.strands.trans (by rw [husame]; rfl), ?_⟩
    rw [hv, (completionConditions_onlyChan c u k _).ms, husame]
    rfl
  have hstatus : u.status = s.status := by rw [husame]; rfl
  -- the strand's count changes the strands alone
  have hhand : ∀ w : State, w.strands = s.strands → w.ms = s.ms → (w.chan c).record.mode = (s.chan c).record.mode →
      handCount c k (lineCount en) w = { w with strands := strandsCounted s c en } := by
    intro w hws hwms hwmode
    unfold handCount strandsCounted
    rw [hwmode]
    by_cases hcount : (s.chan c).record.mode = .live ∧ ¬MalformedLine s c en
    · rw [if_pos ⟨mt hk.1 hcount.2, hcount.1⟩, if_pos hcount, modStrand, hws, hwms, countLine_eq]
    · rw [if_neg fun h => hcount ⟨h.2, mt hk.2 h.1⟩, if_neg hcount, ← hws]
  rw [hrun, hhand (enqueueEntry c e k (gapOf s c en) v) hvs.1 hvs.2 hmode]
  have honly : OnlyChan c s (enqueueEntry c e k (gapOf s c en) v) := by
    have h1 : OnlyChan c s u := hu ▸ (reportCompletion_onlyChan c s).trans (modCapture_onlyChan c _ _)
    have h2 : OnlyChan c u v := hv ▸ completionConditions_onlyChan c u k _
    exact h1.trans (h2.trans (modCapture_onlyChan c v _))
  refine ⟨⟨honly.others, honly.setup, honly.engine, honly.us, honly.ms, honly.usInMs, honly.resetLine, honly.mfIn,
    honly.pending⟩, hchan, ?_, ?_, rfl, fun d hd => ?_, ?_, ?_, ?_, ?_⟩
  · exact hcond.unrouted.trans (by rw [husame]; rfl)
  · exact hcond.ring.trans (by rw [husame]; rfl)
  · exact (hcond.others d hd).trans (by rw [hstatus])
  · exact hcond.latched.trans (by rw [hstatus])
  · exact hcond.part.trans (by rw [hstatus])
  · exact hcond.counters.trans (by rw [hstatus])
  · exact hcond.partCounters.trans (by rw [hstatus])

end Sys2Proof.Machine
end

section
/-! The trailer of a line to be analysed (R9, R15, R18, R26, R27). -/

namespace Sys2Proof.Machine

open Sys2Proof.Safety

/-! ## The trailer beat reaches the line in progress -/

theorem takeBeat_completes {x : Acceptance} {c : Chan} {j a w : Nat} {e : Fin 2} (id i : Nat) (b : Beat) (hw : heldW x.st = w)
    (hreach : BeatReaches x.st c j (32 + w) a) (hasm : (x.st.chan c).capture.asm = .assembling j)
    (he : assemblingEntry (x.st.chan c).capture = some e) : takeBeat id i a b x = completeLine c e id i x := by
  rw [takeBeat_trailer id i hw hreach le_rfl (by omega) (asmSlot_eq_some.2 (.inl hasm)), ownTrailer, hasm]
  simp only [he]

theorem completeLine_held {c : Chan} {e : Fin 2} {id i : Nat} {x : Acceptance} {k : LineClass}
    (hk : classOf x.st c (entryOf (x.st.chan c).capture e) = k) (hv : classVerdict k = none) :
    completeLine c e id i x =
      { x with
        st := serveIfAlone c (x.st.chan c).capture.queue.isEmpty (holdTrailer c e id i (completeEffects c e k x.st))
        isHeld := true } := by
  unfold completeLine
  simp only [hk, hv]

theorem completeLine_atOnce {c : Chan} {e : Fin 2} {id i : Nat} {x : Acceptance} {k : LineClass} {v : Verdict}
    (hk : classOf x.st c (entryOf (x.st.chan c).capture e) = k) (hv : classVerdict k = some v) :
    completeLine c e id i x =
      { x with
        st := serveIfAlone c (x.st.chan c).capture.queue.isEmpty (completeEffects c e k x.st)
        rewrites := x.rewrites ++ [(i, plainWord v)] } := by
  unfold completeLine
  simp only [hk, hv]

/-! ## What follows a completion -/

/-- What a completion's later effects must leave for R9's own to stand. -/
theorem completionOnly_of {c : Chan} {e : Fin 2} {en : Entry} {k : LineClass} {s u t : State} (h : Completed c e en k s u)
    (honly : OnlyChan c u t) (hunrouted : t.unrouted = u.unrouted) (hwords : t.status.words = u.status.words)
    (hothers : ∀ d, d ≠ c → t.status.counters.get d = u.status.counters.get d)
    (hmalformed : (t.status.counters.get c).malformed = (u.status.counters.get c).malformed) : CompletionOnly s t c en := by
  refine ⟨fun d hd => ⟨(honly.others d hd).trans (h.only.others d hd), ?_, ?_⟩, hunrouted.trans h.unrouted,
    honly.engine.trans h.only.engine, ?_, ?_⟩
  · rw [hothers d hd, h.counters, Bank16.get_set_other _ _ hd]
  · rw [hwords, h.others d hd]
  · rw [hwords, h.latched]
  · rw [hmalformed, h.counters, Bank16.get_set_same]

/-- R26: a line to be analysed at the head of the queue in WAITING is the billet head, and otherwise stays there. -/
theorem serveHead_toAnalyse {c : Chan} {e : Fin 2} {s : State} (n : Nat) (hhead : (s.chan c).capture.queue.head? = some e)
    (hcls : (entryOf (s.chan c).capture e).cls = some .toAnalyse) :
    serveHead c (n + 1) s = if (s.chan c).record.state = .waiting then billetHead c e s else s := by
  rw [serveHead, hhead]
  simp only [hcls]
  rfl

/-! ## The line held (R18, R26, R27) -/

/-- R9, R18: channel `c` as the completed line of entry `e` waits for its analysis, its trailer held as transaction `id`. -/
def trailedChan (s : State) (c : Chan) (e : Fin 2) (en : Entry) (id : Nat) : Channel :=
  { completedChan s c e en .toAnalyse with
    held := (s.chan c).held ++
      [{ entry := e, txn := id, beat := 0, start := s.us, length := 10 * (s.chan c).params.chan.holdTens }] }

/-- R27: a channel whose line of entry `e` has become the billet head. -/
def headedChan (now : Word32) (e : Fin 2) (ch : Channel) : Channel :=
  { ch with
    record := headRecord now ch.params.chan (lineCount (entryOf ch.capture e)) ch.record
    band := { ch.band with prevCentre := none }
    capture := setEntry ch.capture e { entryOf ch.capture e with isHead := true } }

theorem billetHead_eq (c : Chan) (e : Fin 2) (s : State) :
    billetHead c e s = setChan c (headedChan s.ms e (s.chan c)) s := rfl

theorem holdTrailer_completed {c : Chan} {e : Fin 2} {en : Entry} {s u : State} (h : Completed c e en .toAnalyse s u) (id : Nat) :
    holdTrailer c e id 0 u = setChan c (trailedChan s c e en id) u := by
  obtain ⟨-, hheld, -, -, -, hparams, -, -⟩ := reported_rest s.ms (s.chan c)
  rw [holdTrailer, modChan, h.chan, h.only.us]
  unfold trailedChan completedChan
  simp only [hheld, hparams]

theorem trailedChan_entry (s : State) (c : Chan) (e : Fin 2) (en : Entry) (id : Nat) :
    entryOf (trailedChan s c e en id).capture e =
      { en with state := .queued, cls := some .toAnalyse, gap := gapOf s c en } := by
  match e with
  | 0 => rfl
  | 1 => rfl

/-- A channel in WAITING has no billet open, so the report leaves it. -/
theorem reported_waiting {s : State} {c : Chan} (h : (s.chan c).record.state = .waiting) (now : Word32) :
    reported now (s.chan c) = s.chan c := reported_closed (by rw [billetOpen, h]) now

theorem reported_state {s : State} {c : Chan} (now : Word32) :
    (reported now (s.chan c)).record.state = .waiting ↔ (s.chan c).record.state = .waiting := by
  cases ho : billetOpen s c with
  | true =>
    rw [reported_open ho]
    refine iff_of_false ChanState.noConfusion fun h => ?_
    rw [billetOpen, h] at ho
    exact Bool.noConfusion ho
  | false => rw [reported_closed ho]

/-- R16, R26, R27: what becomes of the held line at its place in the queue. -/
theorem serveIfAlone_held {c : Chan} {e : Fin 2} {en : Entry} {s u : State} (h : Completed c e en .toAnalyse s u) (id : Nat) :
    serveIfAlone c (s.chan c).capture.queue.isEmpty (holdTrailer c e id 0 u) =
      setChan c
        (if (s.chan c).record.state = .waiting ∧ (s.chan c).capture.queue = [] then
          headedChan s.ms e (trailedChan s c e en id)
        else trailedChan s c e en id) u := by
  rw [holdTrailer_completed h]
  by_cases hq : (s.chan c).capture.queue = []
  · obtain ⟨w, hw⟩ : ∃ w, w = setChan c (trailedChan s c e en id) u := ⟨_, rfl⟩
    have hwc : w.chan c = trailedChan s c e en id := by rw [hw, chan_setChan_same]
    have hwms : w.ms = s.ms := by rw [hw]; exact h.only.ms
    have hstate : (w.chan c).record.state = .waiting ↔ (s.chan c).record.state = .waiting := by
      rw [hwc]
      exact reported_state s.ms
    have hhead : (w.chan c).capture.queue.head? = some e := by
      rw [hwc]
      exact (congrArg (fun q => (q ++ [e]).head?) hq).trans rfl
    rw [← hw, hq]
    change serveHead c 3 w = _
    rw [serveHead_toAnalyse 2 hhead (by rw [hwc, trailedChan_entry]), billetHead_eq, hwms, hwc]
    by_cases hwaiting : (s.chan c).record.state = .waiting
    · rw [if_pos (hwc ▸ hstate.2 hwaiting), if_pos ⟨hwaiting, rfl⟩, hw, setChan_setChan]
    · rw [if_neg (hwc ▸ mt hstate.1 hwaiting), if_neg fun hn => hwaiting hn.1, hw]
  · rw [if_neg fun hn => hq hn.2]
    have hempty : (s.chan c).capture.queue.isEmpty = false := by simpa using hq
    rw [hempty]
    rfl

/-- R9, R18: the write of the trailer beat of a line to be analysed. -/
theorem toAnalyse_written {mf : BitVec 8} {addr : BitVec 40} {b : Beat} {c : Chan} {j : Nat} {e : Fin 2} {en : Entry}
    {g : Geometry} {s : State} (hs : Accepting s) (hr : s.setup.command = .ready) (hg : s.setup.geometry = some g)
    (ha : addr.toNat % 8 = 0) (hreach : BeatReaches s c j (32 + g.w) addr.toNat) (hasm : (s.chan c).capture.asm = .assembling j)
    (he : assemblingEntry (s.chan c).capture = some e) (hen : en = entryOf (s.chan c).capture e)
    (hclass : ClassGiven mf s c en .toAnalyse) :
    ∃ u, Completed c e en .toAnalyse (presented mf s) u ∧ u.path.list = s.path.list ∧
      exec (.systemWrite mf addr [b]) s =
        .next
          (listTxn { id := s.path.nextId, addr := addr.toNat, body := .write [b], held := true, watch := .all }
            (setChan c
              (if (s.chan c).record.state = .waiting ∧ (s.chan c).capture.queue = [] then
                headedChan s.ms e (trailedChan s c e en s.path.nextId)
              else trailedChan s c e en s.path.nextId) u)) := by
  have hclassed : classOf (presented mf s) c (entryOf ((presented mf s).chan c).capture e) = .toAnalyse := by
    have h := classOf_given (mf := mf) (s := presented mf s) (c := c) (en := en) (k := .toAnalyse) rfl hs.1 hclass
    rw [hen] at h
    exact h
  have hdone := completeEffects_completed (c := c) (e := e) (en := en) (k := .toAnalyse) (s := presented mf s) hen
    (iff_of_false LineClass.noConfusion hclass.1)
  have htake := (takeBeat_completes (x := untaken (presented mf s)) (w := g.w) (j := j) (a := addr.toNat) s.path.nextId 0 b
    (heldW_geometry hg) hreach hasm he).trans (completeLine_held hclassed rfl)
  have hserve := serveIfAlone_held hdone s.path.nextId
  have hexec := exec_oneBeat hs hr ha (region_reaches hreach) htake rfl
  have hlist := captureWrite_list s.path.nextId addr.toNat [b] (presented mf s)
  rw [captureWrite_taken (a := addr.toNat) (beats := [b]) htake] at hlist
  rw [watchNow_geometry hs.1 hg] at hexec
  exact ⟨_, hdone, (congrArg (fun t : State => t.path.list) hserve).symm.trans hlist,
    hexec.trans (congrArg (fun t => Host.Outcome.next (listTxn
      { id := s.path.nextId, addr := addr.toNat, body := .write [b], held := true, watch := .all } t)) hserve)⟩

/-- Settles O20: the completion, the held trailer, and in WAITING with nothing before it the billet head. -/
theorem trailerOfALineToBeAnalysedIsHeld : Obligations.TrailerOfALineToBeAnalysedIsHeld := by
  intro mf addr b c j e en g s hs hr hg ha hreach hasm he hen hclass
  obtain ⟨u, hdone, hlist, hexec⟩ := toAnalyse_written (b := b) hs hr hg ha hreach hasm he hen hclass
  obtain ⟨ch, hch⟩ : ∃ ch, ch =
      if (s.chan c).record.state = .waiting ∧ (s.chan c).capture.queue = [] then
        headedChan s.ms e (trailedChan s c e en s.path.nextId)
      else trailedChan s c e en s.path.nextId := ⟨_, rfl⟩
  rw [← hch] at hexec
  obtain ⟨hseq, hunplaced⟩ := wellPlaced_after hclass.1
  obtain ⟨-, -, htracks, hband, hbackground, hparams, hwaiting, -⟩ := reported_rest s.ms (s.chan c)
  have hhead : (s.chan c).record.state = .waiting → (s.chan c).capture.queue = [] →
      ch = headedChan s.ms e (trailedChan s c e en s.path.nextId) := fun h1 h2 => by rw [hch, if_pos ⟨h1, h2⟩]
  have hwait : ¬((s.chan c).record.state = .waiting ∧ (s.chan c).capture.queue = []) →
      ch = trailedChan s c e en s.path.nextId := fun h => by rw [hch, if_neg h]
  have hcommon : ch.held = (trailedChan s c e en s.path.nextId).held ∧ ch.tracks = (reported s.ms (s.chan c)).tracks ∧
      ch.background = (reported s.ms (s.chan c)).background ∧ ch.params = (reported s.ms (s.chan c)).params ∧
      ch.waiting = (reported s.ms (s.chan c)).waiting := by
    rw [hch]
    split
    · exact ⟨rfl, rfl, rfl, rfl, rfl⟩
    · exact ⟨rfl, rfl, rfl, rfl, rfl⟩
  obtain ⟨hcheld, hctracks, hcbackground, hcparams, hcwaiting⟩ := hcommon
  have hcompletion : CompletionOnly (presented mf s) (setChan c ch u) c en :=
    completionOnly_of hdone (modChan_onlyChan c u fun _ => ch) rfl rfl (fun _ _ => rfl) rfl
  obtain ⟨t, ht⟩ : ∃ t, t = setChan c ch u := ⟨_, rfl⟩
  have htc : t.chan c = ch := by rw [ht, chan_setChan_same]
  rw [← ht] at hexec hcompletion
  refine ⟨_, hexec, hcompletion, congrArg (fun l => l ++ _) (by rw [ht]; exact hlist), ?_⟩
  change (t.chan c).held = _ ∧ (t.chan c).capture = _ ∧ (t.chan c).tracks = _ ∧ (t.chan c).background = _ ∧
    (t.chan c).params = _ ∧ (t.chan c).waiting = _ ∧ t.strands = _ ∧ t.ring = _ ∧ t.status.counters.get c = _ ∧
    t.status.partCounters = _ ∧ t.status.part = _ ∧ (_ → (t.chan c).band = _ ∧ (t.chan c).record = _) ∧
    (_ → _ → (t.chan c).band = _ ∧ (t.chan c).record = _)
  rw [htc]
  refine ⟨hcheld, ?_, hctracks.trans htracks, hcbackground.trans hbackground, hcparams.trans hparams, hcwaiting.trans hwaiting,
    by rw [ht]; exact hdone.strands, by rw [ht]; exact hdone.ring, ?_, by rw [ht]; exact hdone.partCounters,
    by rw [ht]; exact hdone.part, fun hnot => ?_, fun h1 h2 => ?_⟩
  · rw [← hseq, ← hunplaced]
    by_cases hfirst : (s.chan c).record.state = .waiting ∧ (s.chan c).capture.queue = []
    · rw [hhead hfirst.1 hfirst.2, if_pos hfirst]
      match e with
      | 0 => rfl
      | 1 => rfl
    · rw [hwait hfirst, if_neg hfirst]
      rfl
  · rw [ht]
    change u.status.counters.get c = _
    rw [hdone.counters, Bank16.get_set_same, if_neg (show ¬MalformedLine (presented mf s) c en from hclass.1)]
    rfl
  · rw [hwait hnot]
    exact ⟨hband, rfl⟩
  · have hrep := reported_waiting h1 s.ms
    have hcount : lineCount (entryOf (trailedChan s c e en s.path.nextId).capture e) = lineCount en := by
      rw [trailedChan_entry]
      rfl
    rw [hhead h1 h2]
    unfold headedChan
    simp only
    rw [hcount]
    unfold trailedChan completedChan
    rw [hrep]
    exact ⟨rfl, rfl⟩

end Sys2Proof.Machine
end

section
/-! The end of a line at the head of its channel's queue (R16, R17): what it adds to the unseen run, the BLIND test, and the billet
tail (R30). -/

namespace Sys2Proof.Machine

open Sys2Proof.Safety

/-! ## What the endings keep -/

/-- From `s` to `t` channel `c`'s line capture, background, held trailers and conditions are kept, and of its counters all but the
discarded closures; so is every other channel. -/
structure KeepsLine (c : Chan) (s t : State) : Prop where
  only : OnlyChan c s t
  unrouted : t.unrouted = s.unrouted
  words : t.status.words = s.status.words
  counters : t.status.counters =
    s.status.counters.set c
      { s.status.counters.get c with discarded := (t.status.counters.get c).discarded }
  list : t.path.list = s.path.list
  held : (t.chan c).held = (s.chan c).held
  background : (t.chan c).background = (s.chan c).background

theorem KeepsLine.refl (c : Chan) (s : State) : KeepsLine c s s :=
  ⟨.refl c s, rfl, rfl, (Bank16.set_get_self _ c).symm, rfl, rfl, rfl⟩

theorem KeepsLine.trans {c : Chan} {s t u : State} (h : KeepsLine c s t) (k : KeepsLine c t u) : KeepsLine c s u where
  only := h.only.trans k.only
  unrouted := k.unrouted.trans h.unrouted
  words := k.words.trans h.words
  counters := by
    have hk := k.counters
    rw [h.counters, Bank16.get_set_same, Bank16.set_set] at hk
    exact hk
  list := k.list.trans h.list
  held := k.held.trans h.held
  background := k.background.trans h.background

theorem Closes.keepsLine {c : Chan} {s t : State} (h : Closes c s t) : KeepsLine c s t :=
  ⟨h.only, h.unrouted, h.words, h.counters, h.list, by rw [h.chan], by rw [h.chan]⟩

theorem setChan_keepsLine {c : Chan} {ch : Channel} {s : State} (hheld : ch.held = (s.chan c).held)
    (hbackground : ch.background = (s.chan c).background) : KeepsLine c s (setChan c ch s) :=
  ⟨modChan_onlyChan c s fun _ => ch, rfl, rfl, (Bank16.set_get_self _ c).symm, rfl, by rw [chan_setChan_same, hheld],
    by rw [chan_setChan_same, hbackground]⟩

theorem modRing_keepsLine (c : Chan) (f : Ring → Ring) (s : State) : KeepsLine c s (modRing f s) :=
  ⟨modRing_onlyChan c s f, rfl, rfl, (Bank16.set_get_self _ c).symm, rfl, rfl, rfl⟩

theorem KeepsLine.counter {c : Chan} {s t : State} (h : KeepsLine c s t) :
    (∀ d, d ≠ c → t.status.counters.get d = s.status.counters.get d) ∧
      (t.status.counters.get c).malformed = (s.status.counters.get c).malformed ∧
      (t.status.counters.get c).unseen = (s.status.counters.get c).unseen :=
  ⟨fun d hd => by rw [h.counters, Bank16.get_set_other _ _ hd], by rw [h.counters, Bank16.get_set_same],
    by rw [h.counters, Bank16.get_set_same]⟩

/-! ## The unseen run (R16) -/

/-- R16: channel `c` after `n` unseen or missing lines are added to its run and an open billet's tally. -/
def unseenChan (s : State) (c : Chan) (n : Nat) : Channel :=
  { s.chan c with
    capture := { (s.chan c).capture with unseenRun := min ((s.chan c).capture.unseenRun + n) 65535 }
    record := { (s.chan c).record with tallies := { (s.chan c).record.tallies with unseen := unseenTally s c n } } }

/-- R16: the state after that. -/
def unseenAdded (s : State) (c : Chan) (n : Nat) : State :=
  setChan c (unseenChan s c n) (modCounters c (fun k => { k with unseen := min (k.unseen + n) 65535 }) s)

theorem addUnseen_eq (c : Chan) (n : Nat) (s : State) : addUnseen c n s = unseenAdded s c n := by
  have hcap : modCounters c (fun k => { k with unseen := sat16 (k.unseen + n) })
      (modCapture c (fun k => { k with unseenRun := sat16 (k.unseenRun + n) }) s) =
        setChan c
          { s.chan c with
            capture := { (s.chan c).capture with unseenRun := min ((s.chan c).capture.unseenRun + n) 65535 } }
          (modCounters c (fun k => { k with unseen := min (k.unseen + n) 65535 }) s) := rfl
  unfold addUnseen unseenAdded unseenChan unseenTally
  simp only
  rw [hcap]
  by_cases ho : billetOpen s c = true
  · rw [if_pos ho, if_pos ho, modTallies_eq, modRecord_eq, modChan, chan_setChan_same, setChan_setChan]
    rfl
  · rw [if_neg ho, if_neg ho]

theorem unseenAdded_chan (s : State) (c : Chan) (n : Nat) : (unseenAdded s c n).chan c = unseenChan s c n := by
  rw [unseenAdded, chan_setChan_same]

/-- What adding to the run leaves. -/
theorem unseenAdded_rest (s : State) (c : Chan) (n : Nat) :
    OnlyChan c s (unseenAdded s c n) ∧ (unseenAdded s c n).unrouted = s.unrouted ∧
      (unseenAdded s c n).ring = s.ring ∧ (unseenAdded s c n).strands = s.strands ∧
      (unseenAdded s c n).status.words = s.status.words ∧ (unseenAdded s c n).status.part = s.status.part ∧
      (unseenAdded s c n).status.counters =
        s.status.counters.set c
          { s.status.counters.get c with unseen := min ((s.status.counters.get c).unseen + n) 65535 } := by
  exact ⟨(modCounters_onlyChan c s c _).trans (modChan_onlyChan c _ fun _ => unseenChan s c n), rfl, rfl, rfl, rfl, rfl, rfl⟩

theorem billetOpen_congr {s t : State} {c : Chan} (h : (t.chan c).record.state = (s.chan c).record.state) :
    billetOpen t c = billetOpen s c := by
  unfold billetOpen
  rw [h]

theorem billetOpen_unseenAdded (s : State) (c : Chan) (n : Nat) : billetOpen (unseenAdded s c n) c = billetOpen s c :=
  billetOpen_congr (by rw [unseenAdded_chan]; rfl)

/-! ## The BLIND test (R17) -/

theorem blindTest_keeps {s : State} {c : Chan}
    (h : billetOpen s c = false ∨ (s.chan c).capture.unseenRun ≤ (s.chan c).params.chan.maxSkip) : blindTest c s = s := by
  unfold blindTest
  refine if_neg fun hb => ?_
  rcases h with h | h
  · rw [h] at hb
    exact Bool.false_ne_true hb.1
  · exact absurd hb.2 (Nat.not_lt.2 h)

theorem blindTest_goes {s : State} {c : Chan} (ho : billetOpen s c = true)
    (h : (s.chan c).params.chan.maxSkip < (s.chan c).capture.unseenRun) : blindTest c s = goBlind c s := if_pos ⟨ho, h⟩

/-- R17: a channel gone blind. -/
structure Blinded (c : Chan) (s t : State) : Prop where
  keeps : KeepsLine c s t
  capture : (t.chan c).capture = { (s.chan c).capture with unseenRun := 0 }
  tracks : (t.chan c).tracks = []
  episode : (t.chan c).band.episode.state = .absent
  prevCentre : (t.chan c).band.prevCentre = none
  record : (t.chan c).record =
    { (s.chan c).record with serial := (t.chan c).record.serial, tallies := (t.chan c).record.tallies }
  params : (t.chan c).params = (s.chan c).params
  waiting : (t.chan c).waiting = (s.chan c).waiting

theorem goBlind_blinded (c : Chan) (s : State) : Blinded c s (goBlind c s) := by
  obtain ⟨u, hu⟩ : ∃ u, u = closeTracks c .blind s := ⟨_, rfl⟩
  obtain ⟨w, hw⟩ : ∃ w, w = closeEpisode c (u.chan c).params .blind u := ⟨_, rfl⟩
  have hcloses : Closes c s w := by
    have h1 : Closes c s u := hu ▸ closeTracks_closes c s .blind
    exact h1.trans (hw ▸ closeEpisode_closes c u _ .blind)
  have hrun : goBlind c s =
      setChan c
        { w.chan c with
          band := { (w.chan c).band with prevCentre := none }
          capture := { (w.chan c).capture with unseenRun := 0 } } w := by
    unfold goBlind blindEpisode
    rw [← hu, ← hw, modCapture, modBand, modChan_modChan]
    rfl
  obtain ⟨habsent, htracks⟩ := closeEpisode_chan c (u.chan c).params .blind u
  rw [← hw] at habsent htracks
  have hutracks : (u.chan c).tracks = [] := by rw [hu]; exact (closeTracks_tracks c .blind s).1
  obtain ⟨hwcapture, hwrecord, hwparams, hwwaiting⟩ : (w.chan c).capture = (s.chan c).capture ∧
      (w.chan c).record = { (s.chan c).record with
        serial := (w.chan c).record.serial, tallies := (w.chan c).record.tallies } ∧
      (w.chan c).params = (s.chan c).params ∧ (w.chan c).waiting = (s.chan c).waiting := by
    have h := hcloses.chan
    exact ⟨by rw [h], by rw [h], by rw [h], by rw [h]⟩
  rw [hrun]
  refine ⟨hcloses.keepsLine.trans (setChan_keepsLine rfl rfl), ?_, ?_, ?_, ?_, ?_, ?_, ?_⟩
  · rw [chan_setChan_same, hwcapture]
  · rw [chan_setChan_same]; exact htracks.trans hutracks
  · rw [chan_setChan_same]; exact habsent
  · rw [chan_setChan_same]
  · rw [chan_setChan_same]; exact hwrecord
  · rw [chan_setChan_same]; exact hwparams
  · rw [chan_setChan_same]; exact hwwaiting

theorem blindTest_params (c : Chan) (s : State) :
    ((blindTest c s).chan c).params = (s.chan c).params ∧ ((blindTest c s).chan c).waiting = (s.chan c).waiting := by
  unfold blindTest
  split
  · exact ⟨(goBlind_blinded c s).params, (goBlind_blinded c s).waiting⟩
  · exact ⟨rfl, rfl⟩

/-! ## The retirement (R16) -/

/-- R16: channel `ch` with the head entry `e` of its queue FREE. -/
def freedChan (e : Fin 2) (ch : Channel) : Channel :=
  { ch with capture := { setEntry ch.capture e Entry.empty with queue := ch.capture.queue.drop 1 } }

theorem retire_eq (c : Chan) (e : Fin 2) (k : Seen) (s : State) :
    retire c e k s =
      modChan c (freedChan e)
        (blindTest c (unseenAdded (clearRun c k s) c (contribution k (entryOf (s.chan c).capture e)))) := by
  unfold retire
  rw [addUnseen_eq]
  rfl

/-! ## The billet tail (R30) -/

/-- R139: a flush request that finds records queued. -/
theorem requestFlush_records {s : State} (h : s.ring.queue ≠ []) :
    requestFlush s = modRing (fun r => { r with flushPending := r.flushPending || !r.resetWait }) s := by
  unfold requestFlush
  have hawait : recordsAwait (heldB s) s.ring = true := by
    rw [recordsAwait, Bool.or_eq_true]
    left
    simpa using h
  cases hw : s.ring.resetWait with
  | true =>
    have hkeep : (s.ring.flushPending || !s.ring.resetWait) = s.ring.flushPending := by rw [hw]; exact Bool.or_false _
    rw [requestFlushOn, if_pos hw, modRing]
    simp only [hkeep]
  | false =>
    rw [requestFlushOn_eq hw, hawait, modRing, modRing]
    simp [hw]

/-- R30: a billet ended by its tail. -/
structure Tailed (c : Chan) (s t : State) : Prop where
  keeps : KeepsLine c s t
  chan : t.chan c =
    { s.chan c with
      tracks := []
      band := (t.chan c).band
      record := { settleRecord .waiting (s.chan c).record with
        serial := (t.chan c).record.serial, tallies := (t.chan c).record.tallies } }
  episode : (t.chan c).band.episode.state = .absent
  ended : EndsInTheQueue s c → BilletEnded (s.chan c).params (s.chan c).band.effPitch .tail .tail c s t
    { s.ring with flushPending := s.ring.flushPending || (s.ring.flushOnTail && !s.ring.resetWait) }

theorem billetTail_tailed (c : Chan) (s : State) : Tailed c s (billetTail c s) := by
  obtain ⟨y, hy⟩ : ∃ y, y = modRecord c (settleRecord .waiting) s := ⟨_, rfl⟩
  have hyc : y.chan c = { s.chan c with record := settleRecord .waiting (s.chan c).record } := by
    rw [hy, modRecord_chan_same]
  have hyring : y.ring = s.ring := by rw [hy]; rfl
  obtain ⟨z, hz⟩ : ∃ z, z = endBillet c .tail .tail y := ⟨_, rfl⟩
  have hcloses : Closes c y z := hz ▸ endBillet_closes c y .tail .tail
  have hkeeps : KeepsLine c s z := by
    refine KeepsLine.trans ?_ hcloses.keepsLine
    rw [hy, modRecord]
    exact setChan_keepsLine rfl rfl
  have hrun : billetTail c s = if z.ring.flushOnTail then requestFlush z else z := by
    rw [hz, hy]
    rfl
  have hflush : ∃ f, billetTail c s = modRing (fun r => { r with flushPending := f }) z := by
    rw [hrun]
    split
    · rcases requestFlush_cases z with h | h
      · exact ⟨z.ring.flushPending, h⟩
      · exact ⟨true, h⟩
    · exact ⟨z.ring.flushPending, rfl⟩
  obtain ⟨f, hf⟩ := hflush
  have hchan : (billetTail c s).chan c = z.chan c := by rw [hf]; rfl
  obtain ⟨htracks, habsent⟩ := closeAll_chan c .tail y
  rw [← endBillet_chan c .tail .tail y, ← hz] at htracks habsent
  refine ⟨by rw [hf]; exact hkeeps.trans (modRing_keepsLine c _ z), ?_, by rw [hchan]; exact habsent, fun hends => ?_⟩
  · rw [hchan]
    have h := hcloses.chan
    rw [htracks, hyc] at h
    exact h
  · have hyends : EndsInTheQueue y c := by
      unfold EndsInTheQueue
      rw [hyc, hyring]
      exact hends
    have hended := endBillet_billetEnded .tail .tail hyends
    rw [← hz] at hended
    have hring := billetEnded_ring hended
    have hqueue : z.ring.queue ≠ [] := by
      obtain ⟨ds, -, -, -, -, h⟩ := hended
      rw [h]
      simp
    have hparams : (y.chan c).params = (s.chan c).params ∧ (y.chan c).band = (s.chan c).band := by rw [hyc]; exact ⟨rfl, rfl⟩
    rw [hparams.1, hparams.2] at hended
    refine billetEnded_congr hended (by rw [hy]; rfl) (by rw [hy]; rfl) (by rw [hyc]; rfl) (by rw [hyc]; rfl)
      (by rw [hyc]; rfl) (by rw [hyc]; rfl) (by rw [hyc]; rfl) (by rw [hyc]) (by rw [hyc]) (by rw [hyring])
      (by rw [hchan]) (by rw [hchan]) ?_
    rw [hrun, requestFlush_records hqueue]
    have honTail : z.ring.flushOnTail = s.ring.flushOnTail := by rw [hring, hyring]
    have hwait : z.ring.resetWait = s.ring.resetWait := by rw [hring, hyring]
    have hpending : z.ring.flushPending = s.ring.flushPending := by rw [hring, hyring]
    cases hon : s.ring.flushOnTail with
    | true =>
      rw [if_pos (honTail.trans hon), modRing_ring, hwait, hpending, hring, hyring]
      simp only [Bool.true_and, hon]
    | false =>
      rw [if_neg (by rw [honTail, hon]; exact Bool.false_ne_true), hring, hyring]
      simp only [Bool.false_and, Bool.or_false, hon]

end Sys2Proof.Machine
end

section
/-! A completed line that is not to be analysed, at the head of its channel's queue (R16, R17, R26, R30). -/

namespace Sys2Proof.Machine

open Sys2Proof.Safety

/-! ## The effect at the head (R26, R179) -/

/-- R31, R179: channel `c` as a line not to be analysed acts on it, but for its line capture. -/
def actedChan (s : State) (c : Chan) : Channel :=
  if billetOpen s c = true then switched (reported s.ms (s.chan c)) else s.chan c

/-- That channel with the completed line of entry `e` in its queue. -/
def actedLine (s : State) (c : Chan) (e : Fin 2) (en : Entry) (k : LineClass) : Channel :=
  { actedChan s c with capture := (completedChan s c e en k).capture }

theorem switched_capture (ch : Channel) (k : Capture) :
    switched { ch with capture := k } = { switched ch with capture := k } := by
  obtain ⟨capture, held, record, background, band, tracks, params, waiting⟩ := ch
  cases waiting with
  | none => rfl
  | some p => rfl

theorem actedChan_rest (s : State) (c : Chan) :
    (actedChan s c).held = (s.chan c).held ∧ (actedChan s c).background = (s.chan c).background ∧
      (actedChan s c).tracks = (s.chan c).tracks ∧
      (actedChan s c).record = (reported s.ms (s.chan c)).record ∧
      (actedChan s c).band.episode = (s.chan c).band.episode ∧
      (actedChan s c).band.prevCentre = (s.chan c).band.prevCentre := by
  obtain ⟨-, hheld, htracks, hband, hbackground, -, -, -⟩ := reported_rest s.ms (s.chan c)
  unfold actedChan
  cases ho : billetOpen s c with
  | true =>
    rw [if_pos rfl]
    obtain ⟨hrecord, -, hstracks, hsheld, hsbackground, -, -⟩ := switched_rest (reported s.ms (s.chan c))
    have hsband : (switched (reported s.ms (s.chan c))).band.episode = (reported s.ms (s.chan c)).band.episode ∧
        (switched (reported s.ms (s.chan c))).band.prevCentre = (reported s.ms (s.chan c)).band.prevCentre := by
      unfold switched
      cases (reported s.ms (s.chan c)).waiting <;> exact ⟨rfl, rfl⟩
    exact ⟨hsheld.trans hheld, hsbackground.trans hbackground, hstracks.trans htracks, hrecord,
      hsband.1.trans (by rw [hband]), hsband.2.trans (by rw [hband])⟩
  | false =>
    rw [if_neg Bool.false_ne_true, reported_closed ho]
    exact ⟨rfl, rfl, rfl, rfl, rfl, rfl⟩

/-- R24, R31: a billet open before the report is open after it. -/
theorem billetOpen_reported {s t : State} {c : Chan}
    (h : (t.chan c).record.state = (reported s.ms (s.chan c)).record.state) : billetOpen t c = billetOpen s c := by
  cases ho : billetOpen s c with
  | true => rw [billetOpen, h, reported_open ho]
  | false =>
    rw [reported_closed ho] at h
    rw [billetOpen_congr h, ho]

section Head

variable {c : Chan} {e : Fin 2} {en : Entry} {k : LineClass} {s u : State}

theorem switchInspecting_completed (h : Completed c e en k s u) :
    switchInspecting c u = setChan c (actedLine s c e en k) u := by
  have hline : completedChan s c e en k =
      { reported s.ms (s.chan c) with capture := (completedChan s c e en k).capture } := rfl
  rw [switchInspecting_eq, h.chan, actedLine]
  unfold switchedIfInspecting actedChan
  cases ho : billetOpen s c with
  | true =>
    have hstate : (completedChan s c e en k).record.state = .inspecting := reported_open ho s.ms
    rw [if_pos hstate, if_pos rfl, hline, switched_capture]
  | false =>
    have hstate : (completedChan s c e en k).record.state ≠ .inspecting := by
      intro hi
      have hs : (s.chan c).record.state = .inspecting := by
        rw [← reported_closed ho s.ms]
        exact hi
      rw [billetOpen, hs] at ho
      exact Bool.noConfusion ho
    rw [if_neg hstate, if_neg Bool.false_ne_true]
    unfold completedChan
    rw [reported_closed ho]

/-- R26: what a line not to be analysed does to its channel, a billet's tail apart. -/
theorem actOnHead_switches (h : Completed c e en k s u) (hk : k ≠ .toAnalyse) (htail : ¬(k = .noBillet ∧ billetOpen s c = true)) :
    actOnHead c e k u = setChan c (actedLine s c e en k) u := by
  cases k with
  | toAnalyse => exact absurd rfl hk
  | malformed => exact switchInspecting_completed h
  | lamp => exact switchInspecting_completed h
  | held => exact switchInspecting_completed h
  | reverse => exact switchInspecting_completed h
  | noBillet =>
    have hclosed : billetOpen s c = false := Bool.eq_false_iff.2 fun ho => htail ⟨rfl, ho⟩
    have huclosed : billetOpen u c = false := (billetOpen_reported (by rw [h.chan]; rfl)).trans hclosed
    have hacted : actedLine s c e en .noBillet = completedChan s c e en .noBillet := by
      unfold actedLine actedChan completedChan
      rw [hclosed, if_neg Bool.false_ne_true, reported_closed hclosed]
    rw [actOnHead, huclosed, hacted, ← h.chan, setChan_self]
    rfl

/-- R30: a NO_BILLET line at the head of an open billet is its tail. -/
theorem actOnHead_tail (h : Completed c e en .noBillet s u) (ho : billetOpen s c = true) :
    actOnHead c e .noBillet u = billetTail c (setChan c (actedLine s c e en .noBillet) u) := by
  have huopen : billetOpen u c = true := (billetOpen_reported (by rw [h.chan]; rfl)).trans ho
  rw [actOnHead, huopen, switchInspecting_completed h]
  rfl

theorem actedLine_keepsLine (h : Completed c e en k s u) : KeepsLine c u (setChan c (actedLine s c e en k) u) := by
  obtain ⟨hheld, hbackground, -⟩ := actedChan_rest s c
  obtain ⟨-, hrheld, -, -, hrbackground, -⟩ := reported_rest s.ms (s.chan c)
  refine setChan_keepsLine ?_ ?_
  · rw [h.chan]; exact hheld.trans hrheld.symm
  · rw [h.chan]; exact hbackground.trans hrbackground.symm

/-- R26, R30: whatever the line does at the head, it leaves its line capture. -/
theorem actOnHead_keepsLine (h : Completed c e en k s u) (hk : k ≠ .toAnalyse) :
    KeepsLine c u (actOnHead c e k u) ∧ ((actOnHead c e k u).chan c).capture = (completedChan s c e en k).capture := by
  by_cases htail : k = .noBillet ∧ billetOpen s c = true
  · obtain ⟨rfl, ho⟩ := htail
    rw [actOnHead_tail h ho]
    have htailed := billetTail_tailed c (setChan c (actedLine s c e en .noBillet) u)
    refine ⟨(actedLine_keepsLine h).trans htailed.keeps, ?_⟩
    rw [htailed.chan, chan_setChan_same]
    rfl
  · rw [actOnHead_switches h hk htail]
    refine ⟨actedLine_keepsLine h, ?_⟩
    rw [chan_setChan_same]
    rfl

/-! ## The retirement at once (R16) -/

theorem contribution_eq (hk : k ≠ .toAnalyse) :
    contribution (classSeen k) (entryOf (completedChan s c e en k).capture e) = addedToRun s c en k := by
  have hentry : entryOf (completedChan s c e en k).capture e =
      { en with state := .queued, cls := some k, gap := gapOf s c en } := by
    match e with
    | 0 => rfl
    | 1 => rfl
  rw [hentry]
  cases k with
  | toAnalyse => exact absurd rfl hk
  | malformed => rfl
  | lamp => rfl
  | held => rfl
  | reverse => rfl
  | noBillet => rfl

theorem clearRun_notExamined (hk : k ≠ .toAnalyse) (w : State) : clearRun c (classSeen k) w = w := by
  cases k with
  | toAnalyse => exact absurd rfl hk
  | malformed => rfl
  | lamp => rfl
  | held => rfl
  | reverse => rfl
  | noBillet => rfl

/-- R16: onto an empty queue the line is retired at once. -/
theorem serveHead_retires (h : Completed c e en k s u) (hq : (s.chan c).capture.queue = []) (hk : k ≠ .toAnalyse) :
    serveHead c 3 u =
      modChan c (freedChan e) (blindTest c (unseenAdded (actOnHead c e k u) c (addedToRun s c en k))) := by
  have hcapture : (u.chan c).capture = (completedChan s c e en k).capture := by rw [h.chan]
  have hqueue : (completedChan s c e en k).capture.queue = [e] := (congrArg (fun q => q ++ [e]) hq).trans rfl
  have hcls : (entryOf (u.chan c).capture e).cls = some k := by
    rw [hcapture]
    match e with
    | 0 => rfl
    | 1 => rfl
  obtain ⟨-, hacapture⟩ := actOnHead_keepsLine h hk
  have hserve : serveHead c 3 u = serveHead c 2 (retire c e (classSeen k) (actOnHead c e k u)) := by
    rw [serveHead, hcapture, hqueue]
    simp only [List.head?_cons]
    rw [← hcapture, hcls]
    cases k with
    | toAnalyse => exact absurd rfl hk
    | malformed => rfl
    | lamp => rfl
    | held => rfl
    | reverse => rfl
    | noBillet => rfl
  have hretire : retire c e (classSeen k) (actOnHead c e k u) =
      modChan c (freedChan e) (blindTest c (unseenAdded (actOnHead c e k u) c (addedToRun s c en k))) := by
    rw [retire_eq, clearRun_notExamined hk, hacapture, contribution_eq hk]
  rw [hserve, hretire, serveHead_empty]
  have hblind : ∀ w : State, ((blindTest c w).chan c).capture.queue = (w.chan c).capture.queue := by
    intro w
    by_cases hb : billetOpen w c = true ∧ (w.chan c).params.chan.maxSkip < (w.chan c).capture.unseenRun
    · rw [blindTest_goes hb.1 hb.2, (goBlind_blinded c w).capture]
    · rw [blindTest, if_neg hb]
  rw [chan_modChan_same]
  change ((blindTest c _).chan c).capture.queue.drop 1 = []
  rw [hblind, unseenAdded_chan]
  change ((actOnHead c e k u).chan c).capture.queue.drop 1 = []
  rw [hacapture, hqueue]
  rfl

/-- R16: the channel's line capture once the line is retired, with the unseen run `n`. -/
def servedCapture (s : State) (c : Chan) (e : Fin 2) (en : Entry) (n : Nat) : Capture :=
  { setEntry (s.chan c).capture e Entry.empty with
    asm := .idle
    queue := []
    lastSeq := lastSeqAfter s c en
    unplaced := unplacedAfter s c en
    unseenRun := n }

theorem servedCapture_eq (hq : (s.chan c).capture.queue = []) (n : Nat) :
    { setEntry { (completedChan s c e en k).capture with unseenRun := n } e Entry.empty with
      queue := (completedChan s c e en k).capture.queue.drop 1 } = servedCapture s c e en n := by
  have hqueue : (completedChan s c e en k).capture.queue.drop 1 = [] :=
    (congrArg (fun q => (q ++ [e]).drop 1) hq).trans rfl
  rw [hqueue]
  match e with
  | 0 => rfl
  | 1 => rfl

/-- What the line's retirement leaves, whatever its class and whatever the BLIND test makes of it. -/
structure ServedAtOnce (c : Chan) (e : Fin 2) (en : Entry) (k : LineClass) (s t : State) : Prop where
  completion : CompletionOnly s t c en
  held : (t.chan c).held = (s.chan c).held
  background : (t.chan c).background = (s.chan c).background
  capture : ∃ n, (t.chan c).capture = servedCapture s c e en n
  unseen : (t.status.counters.get c).unseen = min ((s.status.counters.get c).unseen + addedToRun s c en k) 65535

theorem blindTest_keepsLine (c : Chan) (w : State) :
    KeepsLine c w (blindTest c w) ∧ ∃ n, ((blindTest c w).chan c).capture = { (w.chan c).capture with unseenRun := n } := by
  by_cases hb : billetOpen w c = true ∧ (w.chan c).params.chan.maxSkip < (w.chan c).capture.unseenRun
  · rw [blindTest_goes hb.1 hb.2]
    exact ⟨(goBlind_blinded c w).keeps, 0, (goBlind_blinded c w).capture⟩
  · rw [blindTest, if_neg hb]
    exact ⟨.refl c w, _, rfl⟩

theorem serveHead_served (h : Completed c e en k s u) (hq : (s.chan c).capture.queue = []) (hk : k ≠ .toAnalyse) :
    ServedAtOnce c e en k s (serveHead c 3 u) := by
  rw [serveHead_retires h hq hk]
  obtain ⟨hkeeps, hacapture⟩ := actOnHead_keepsLine h hk
  generalize actOnHead c e k u = a at hkeeps hacapture
  obtain ⟨hwonly, hwunrouted, -, -, hwwords, -, hwcounters⟩ := unseenAdded_rest a c (addedToRun s c en k)
  have hwchan := unseenAdded_chan a c (addedToRun s c en k)
  generalize hw : unseenAdded a c (addedToRun s c en k) = w at hwonly hwunrouted hwwords hwcounters hwchan
  obtain ⟨hxkeeps, n, hxcapture⟩ := blindTest_keepsLine c w
  have htkeeps : KeepsLine c w (modChan c (freedChan e) (blindTest c w)) :=
    hxkeeps.trans (setChan_keepsLine rfl rfl)
  have htcapture : ((modChan c (freedChan e) (blindTest c w)).chan c).capture = servedCapture s c e en n := by
    rw [chan_modChan_same, freedChan, hxcapture, hwchan, unseenChan]
    simp only
    rw [hacapture, ← servedCapture_eq (k := k) hq n]
  generalize modChan c (freedChan e) (blindTest c w) = t at htkeeps htcapture
  obtain ⟨hkothers, hkmal, hkunseen⟩ := hkeeps.counter
  obtain ⟨htothers, htmal, htunseen⟩ := htkeeps.counter
  have hrheld := (reported_rest s.ms (s.chan c)).2.1
  have hrbackground := (reported_rest s.ms (s.chan c)).2.2.2.2.1
  refine ⟨completionOnly_of h (hkeeps.only.trans (hwonly.trans htkeeps.only))
    (htkeeps.unrouted.trans (hwunrouted.trans hkeeps.unrouted)) (htkeeps.words.trans (hwwords.trans hkeeps.words))
    (fun d hd => ?_) ?_, ?_, ?_, ⟨n, htcapture⟩, ?_⟩
  · rw [htothers d hd, hwcounters, Bank16.get_set_other _ _ hd, hkothers d hd]
  · rw [htmal, hwcounters, Bank16.get_set_same]
    exact hkmal
  · rw [htkeeps.held, hwchan]
    exact hkeeps.held.trans (by rw [h.chan]; exact hrheld)
  · rw [htkeeps.background, hwchan]
    exact hkeeps.background.trans (by rw [h.chan]; exact hrbackground)
  · rw [htunseen, hwcounters, Bank16.get_set_same]
    simp only
    rw [hkunseen, h.counters, Bank16.get_set_same]

end Head

end Sys2Proof.Machine
end

section
/-! The trailer of a line that is not to be analysed: rewritten at once, and the line's effect at its place in the queue (R9, R12,
R15 to R17, R26, R30). -/

namespace Sys2Proof.Machine

open Sys2Proof.Safety

section Head

variable {c : Chan} {e : Fin 2} {en : Entry} {k : LineClass} {s u : State}

/-- The unseen tally goes by the billet, open or not, and by the tally as it stood. -/
theorem unseenTally_congr {s t : State} {c : Chan} (n : Nat) (hopen : billetOpen t c = billetOpen s c)
    (htallies : (t.chan c).record.tallies = (s.chan c).record.tallies) : unseenTally t c n = unseenTally s c n := by
  unfold unseenTally
  rw [hopen, htallies]

theorem actedChan_tallies (s : State) (c : Chan) : (actedChan s c).record.tallies = (s.chan c).record.tallies := by
  rw [(actedChan_rest s c).2.2.2.1, (reported_rest s.ms (s.chan c)).2.2.2.2.2.2.2]

theorem actedLine_unseenRun : (actedLine s c e en k).capture.unseenRun = (s.chan c).capture.unseenRun := by
  match e with
  | 0 => rfl
  | 1 => rfl

theorem billetOpen_acted (s : State) (c : Chan) (t : State) (h : t.chan c = actedLine s c e en k) :
    billetOpen t c = billetOpen s c :=
  billetOpen_reported (by rw [h]; exact congrArg ChanRecord.state (actedChan_rest s c).2.2.2.1)

/-- R16: a line that neither ends a billet nor makes the channel blind. -/
theorem serveHead_passes (h : Completed c e en k s u) (hq : (s.chan c).capture.queue = []) (hk : k ≠ .toAnalyse)
    (htail : ¬(k = .noBillet ∧ billetOpen s c = true))
    (hrun : billetOpen s c = false ∨
      min ((s.chan c).capture.unseenRun + addedToRun s c en k) 65535 ≤ (actedChan s c).params.chan.maxSkip) :
    (serveHead c 3 u).chan c =
        { actedChan s c with
          capture := servedCapture s c e en (min ((s.chan c).capture.unseenRun + addedToRun s c en k) 65535)
          record := { (actedChan s c).record with
            tallies := { (s.chan c).record.tallies with unseen := unseenTally s c (addedToRun s c en k) } } } ∧
      (serveHead c 3 u).strands = u.strands ∧ (serveHead c 3 u).ring = u.ring ∧
      (serveHead c 3 u).status.part = u.status.part := by
  rw [serveHead_retires h hq hk, actOnHead_switches h hk htail]
  obtain ⟨a, ha⟩ : ∃ a, a = setChan c (actedLine s c e en k) u := ⟨_, rfl⟩
  have hac : a.chan c = actedLine s c e en k := by rw [ha, chan_setChan_same]
  have haopen : billetOpen a c = billetOpen s c := billetOpen_acted s c a hac
  have hatally : unseenTally a c (addedToRun s c en k) = unseenTally s c (addedToRun s c en k) :=
    unseenTally_congr _ haopen (by rw [hac]; exact actedChan_tallies s c)
  have hwchan := unseenAdded_chan a c (addedToRun s c en k)
  have hstays : blindTest c (unseenAdded a c (addedToRun s c en k)) = unseenAdded a c (addedToRun s c en k) := by
    refine blindTest_keeps ?_
    rw [billetOpen_unseenAdded, haopen, hwchan, unseenChan, hac]
    simp only
    rw [actedLine_unseenRun]
    exact hrun
  rw [← ha, hstays]
  refine ⟨?_, by rw [ha]; rfl, by rw [ha]; rfl, by rw [ha]; rfl⟩
  rw [chan_modChan_same, hwchan, unseenChan, hatally, hac, actedLine_unseenRun, ← servedCapture_eq (k := k) hq]
  unfold actedLine
  rw [show (actedChan s c).record.tallies = (s.chan c).record.tallies from actedChan_tallies s c]
  rfl

/-- R17: a line that takes the unseen run over MAXSKIP makes the channel blind. -/
theorem serveHead_blinds (h : Completed c e en k s u) (hq : (s.chan c).capture.queue = []) (hk : k ≠ .toAnalyse)
    (hnoBillet : k ≠ .noBillet) (ho : billetOpen s c = true)
    (hrun : (actedChan s c).params.chan.maxSkip < min ((s.chan c).capture.unseenRun + addedToRun s c en k) 65535)
    {t : State} (ht : serveHead c 3 u = t) :
    (t.chan c).capture.unseenRun = 0 ∧ (t.chan c).capture.queue = [] ∧ (t.chan c).tracks = [] ∧
      (t.chan c).band.episode.state = .absent ∧ (t.chan c).band.prevCentre = none ∧
      (t.chan c).record.state = .inspecting ∧ (t.chan c).record.stall = (actedChan s c).record.stall ∧
      (t.chan c).params = (actedChan s c).params := by
  subst ht
  rw [serveHead_retires h hq hk, actOnHead_switches h hk fun hn => hnoBillet hn.1]
  obtain ⟨a, ha⟩ : ∃ a, a = setChan c (actedLine s c e en k) u := ⟨_, rfl⟩
  have hac : a.chan c = actedLine s c e en k := by rw [ha, chan_setChan_same]
  have haopen : billetOpen a c = true := (billetOpen_acted s c a hac).trans ho
  obtain ⟨w, hw⟩ : ∃ w, w = unseenAdded a c (addedToRun s c en k) := ⟨_, rfl⟩
  have hwchan : w.chan c = unseenChan a c (addedToRun s c en k) := by rw [hw, unseenAdded_chan]
  have hwopen : billetOpen w c = true := by rw [hw, billetOpen_unseenAdded, haopen]
  have hblind : blindTest c w = goBlind c w := by
    refine blindTest_goes hwopen ?_
    rw [hwchan, unseenChan, hac]
    simp only
    rw [actedLine_unseenRun]
    exact hrun
  obtain ⟨-, hcapture, htracks, hepisode, hprev, hrecord, hparams, -⟩ := goBlind_blinded c w
  rw [← ha, ← hw, hblind, chan_modChan_same]
  have hstate : (actedChan s c).record.state = .inspecting := by
    rw [(actedChan_rest s c).2.2.2.1, reported_open ho]
  refine ⟨?_, ?_, htracks, hepisode, hprev, ?_, ?_, ?_⟩
  · change (setEntry _ e Entry.empty).unseenRun = 0
    rw [hcapture]
    match e with
    | 0 => rfl
    | 1 => rfl
  · change ((goBlind c w).chan c).capture.queue.drop 1 = []
    rw [hcapture, hwchan, unseenChan, hac]
    exact (congrArg (fun q => (q ++ [e]).drop 1) hq).trans rfl
  · change ((goBlind c w).chan c).record.state = .inspecting
    rw [hrecord, hwchan, unseenChan, hac]
    exact hstate
  · change ((goBlind c w).chan c).record.stall = _
    rw [hrecord, hwchan, unseenChan, hac]
    rfl
  · change ((goBlind c w).chan c).params = _
    rw [hparams, hwchan, unseenChan, hac]
    rfl

/-- R30: a NO_BILLET line at the head of an open billet. -/
theorem serveHead_ends (h : Completed c e en .noBillet s u) (hq : (s.chan c).capture.queue = []) (ho : billetOpen s c = true)
    {t : State} (ht : serveHead c 3 u = t) :
    (t.chan c).capture =
        servedCapture s c e en (min ((s.chan c).capture.unseenRun + addedToRun s c en .noBillet) 65535) ∧
      (t.chan c).record =
        { (s.chan c).record with
          state := .waiting
          stall := none
          abandon := none
          abandonDue := false
          serial := (t.chan c).record.serial
          tallies := (t.chan c).record.tallies } ∧
      (t.chan c).tracks = [] ∧ (t.chan c).band.episode.state = .absent ∧
      (t.chan c).params = (actedChan s c).params ∧ (t.chan c).waiting = none ∧
      (EndsInTheQueue s c →
        BilletEnded (actedChan s c).params (actedChan s c).band.effPitch .tail .tail c s t
          { s.ring with
            flushPending := s.ring.flushPending || (s.ring.flushOnTail && !s.ring.resetWait) }) := by
  subst ht
  rw [serveHead_retires h hq LineClass.noConfusion, actOnHead_tail h ho]
  obtain ⟨a, ha⟩ : ∃ a, a = setChan c (actedLine s c e en .noBillet) u := ⟨_, rfl⟩
  have hac : a.chan c = actedLine s c e en .noBillet := by rw [ha, chan_setChan_same]
  obtain ⟨z, hz⟩ : ∃ z, z = billetTail c a := ⟨_, rfl⟩
  obtain ⟨-, hzchan, hzepisode, hended⟩ := billetTail_tailed c a
  rw [← hz] at hzchan hzepisode hended
  rw [← ha, ← hz]
  have hzclosed : billetOpen z c = false := by
    rw [billetOpen, hzchan]
    rfl
  have htally : unseenTally z c (addedToRun s c en .noBillet) = (z.chan c).record.tallies.unseen := by
    unfold unseenTally
    rw [hzclosed]
    rfl
  have hwchan := unseenAdded_chan z c (addedToRun s c en .noBillet)
  have hstays : blindTest c (unseenAdded z c (addedToRun s c en .noBillet)) = unseenAdded z c (addedToRun s c en .noBillet) :=
    blindTest_keeps (.inl (by rw [billetOpen_unseenAdded, hzclosed]))
  rw [hstays]
  obtain ⟨t, ht⟩ : ∃ t, t = modChan c (freedChan e) (unseenAdded z c (addedToRun s c en .noBillet)) := ⟨_, rfl⟩
  have htchan : t.chan c = freedChan e (unseenChan z c (addedToRun s c en .noBillet)) := by
    rw [ht, chan_modChan_same, hwchan]
  have htrecord : (t.chan c).record = (z.chan c).record := by
    rw [htchan, freedChan, unseenChan, htally]
  have htring : t.ring = z.ring := by rw [ht]; rfl
  rw [← ht]
  obtain ⟨-, -, htracks, hrecord, hepisode, hprev⟩ := actedChan_rest s c
  have hreported := (reported_rest s.ms (s.chan c)).2.2.2.2.2.2.2
  have hwaiting : (actedChan s c).waiting = none := by
    unfold actedChan switched
    rw [if_pos ho]
    split
    · assumption
    · rfl
  refine ⟨?_, ?_, ?_, ?_, ?_, ?_, fun hends => ?_⟩
  · have hzcapture : (z.chan c).capture = (completedChan s c e en .noBillet).capture := by rw [hzchan, hac]; rfl
    have hzrun : (completedChan s c e en .noBillet).capture.unseenRun = (s.chan c).capture.unseenRun := actedLine_unseenRun
    rw [htchan, ← servedCapture_eq (k := .noBillet) hq, freedChan, unseenChan, hzcapture, hzrun]
  · rw [htrecord, hzchan, hac, actedLine]
    simp only
    rw [hrecord, hreported]
    rfl
  · rw [htchan, freedChan, unseenChan, hzchan]
  · rw [htchan]
    exact hzepisode
  · rw [htchan, freedChan, unseenChan, hzchan, hac, actedLine]
  · rw [htchan, freedChan, unseenChan, hzchan, hac]
    exact hwaiting
  · have haring : a.ring = s.ring := by rw [ha]; exact h.ring
    have haends : EndsInTheQueue a c := by
      unfold EndsInTheQueue
      rw [hac, haring, actedLine]
      simp only
      rw [hepisode, hprev, htracks]
      exact hends
    have hended := hended haends
    rw [hac, haring] at hended
    have hms : a.ms = s.ms := by rw [ha]; exact h.only.ms
    have hheld : heldW a = heldW s := by
      have hsetup : a.setup = s.setup := by rw [ha]; exact h.only.setup
      rw [heldW, heldW, hsetup]
    refine billetEnded_congr hended hheld.symm hms.symm ?_ ?_ ?_ ?_ ?_ ?_ ?_ (by rw [haring]) (by rw [htrecord])
      (by rw [htrecord]) ?_
    · rw [hac, actedLine]; simp only; rw [hrecord, hreported]
    · rw [hac, actedLine]; simp only; rw [hrecord, hreported]
    · rw [hac, actedLine]; simp only; rw [hrecord, hreported]
    · rw [hac, actedLine]; simp only; rw [hrecord, hreported]
    · rw [hac, actedLine]; simp only; rw [hrecord, hreported]
    · rw [hac]; exact htracks.symm
    · rw [hac, actedLine]; simp only; rw [hepisode]
    · rw [htring]
      exact billetEnded_ring hended

end Head

end Sys2Proof.Machine
end

section
/-! The write of the trailer beat of a line that is not to be analysed (R15, R16, R18, R19, R179). -/

namespace Sys2Proof.Machine

open Sys2Proof.Safety

section Trailer

variable {mf : BitVec 8} {addr : BitVec 40} {b : Beat} {c : Chan} {j : Nat} {e : Fin 2} {en : Entry} {g : Geometry}
  {k : LineClass} {code : Nat} {s : State}

theorem atOnce_notToAnalyse (h : atOnceCode k = some code) : k ≠ .toAnalyse := by
  rintro rfl
  cases h

/-- R9, R18, R19: the trailer beat completes the line and takes its verdict; on an empty queue the line is served. -/
theorem atOnce_written (hs : Accepting s) (hg : s.setup.geometry = some g)
    (hreach : BeatReaches s c j (32 + g.w) addr.toNat) (hasm : (s.chan c).capture.asm = .assembling j)
    (he : assemblingEntry (s.chan c).capture = some e) (hen : en = entryOf (s.chan c).capture e)
    (hclass : ClassGiven mf s c en k) (hcode : atOnceCode k = some code) :
    ∃ u t, Completed c e en k (presented mf s) u ∧ serveIfAlone c (s.chan c).capture.queue.isEmpty u = t ∧
      t.path.list = s.path.list ∧
      afterWrite mf addr [b] s =
        listTxn
          { id := s.path.nextId, addr := addr.toNat, body := .write [{ data := BitVec.ofNat 64 code, enables := 255 }]
            held := false, watch := .all } t := by
  obtain ⟨v, hv, hvcode⟩ := classVerdict_code hcode
  have hclassed : classOf (presented mf s) c (entryOf ((presented mf s).chan c).capture e) = k := by
    have h := classOf_given (mf := mf) (s := presented mf s) (c := c) (en := en) (k := k) rfl hs.1 hclass
    rw [hen] at h
    exact h
  have hdone := completeEffects_completed (c := c) (e := e) (en := en) (k := k) (s := presented mf s) hen
    (malformed_iff_of_given (mf := mf) (s := presented mf s) hclass)
  have htake := (takeBeat_completes (x := untaken (presented mf s)) (w := g.w) (j := j) (a := addr.toNat) s.path.nextId 0 b
    (heldW_geometry hg) hreach hasm he).trans (completeLine_atOnce hclassed hv)
  have hlist := captureWrite_list s.path.nextId addr.toNat [b] (presented mf s)
  rw [captureWrite_taken (a := addr.toNat) (beats := [b]) htake] at hlist
  refine ⟨_, _, hdone, rfl, hlist, ?_⟩
  rw [afterWrite_oneBeat htake rfl, watchNow_geometry hs.1 hg, ← hvcode, ← plainWord_eq]
  rfl

theorem exec_atOnce (hs : Accepting s) (hr : s.setup.command = .ready) (ha : addr.toNat % 8 = 0)
    (hreach : BeatReaches s c j (32 + g.w) addr.toNat) :
    exec (.systemWrite mf addr [b]) s = .next (afterWrite mf addr [b] s) :=
  exec_systemWrite hs hr ha le_rfl (by simp) (clearOfSetup_one b (region_reaches hreach))

/-- R15, R16: a line behind others is queued, and that is all. -/
theorem completed_queued {u : State} (h : Completed c e en k s u) :
    CompletionOnly s u c en ∧ (u.chan c).held = (s.chan c).held ∧ (u.chan c).background = (s.chan c).background ∧
      (u.status.counters.get c).unseen = (s.status.counters.get c).unseen := by
  obtain ⟨-, hheld, -, -, hbackground, -, -, -⟩ := reported_rest s.ms (s.chan c)
  refine ⟨completionOnly_of h (.refl c u) rfl rfl (fun _ _ => rfl) rfl, ?_, ?_, ?_⟩
  · rw [h.chan]; exact hheld
  · rw [h.chan]; exact hbackground
  · rw [h.counters, Bank16.get_set_same]

/-- The statement's account of a trailer rewritten at once, but for the listed transaction. -/
theorem completed_served {u t : State} (h : Completed c e en k s u) (hk : k ≠ .toAnalyse)
    (ht : serveIfAlone c (s.chan c).capture.queue.isEmpty u = t) :
    CompletionOnly s t c en ∧ (t.chan c).held = (s.chan c).held ∧ (t.chan c).capture.asm = .idle ∧
      (t.chan c).capture.lastSeq = lastSeqAfter s c en ∧ (t.chan c).capture.unplaced = unplacedAfter s c en ∧
      (t.chan c).background = (s.chan c).background ∧ ((s.chan c).capture.queue ≠ [] → t = u) := by
  by_cases hq : (s.chan c).capture.queue = []
  · have hserve : t = serveHead c 3 u := by rw [← ht, hq]; rfl
    obtain ⟨hcompletion, hheld, hbackground, ⟨n, hcapture⟩, -⟩ := serveHead_served h hq hk
    rw [← hserve] at hcompletion hheld hbackground hcapture
    exact ⟨hcompletion, hheld, by rw [hcapture]; rfl, by rw [hcapture]; rfl, by rw [hcapture]; rfl, hbackground,
      fun hne => absurd hq hne⟩
  · have hstays : t = u := by
      rw [← ht, show (s.chan c).capture.queue.isEmpty = false by simpa using hq]
      rfl
    obtain ⟨hcompletion, hheld, hbackground, -⟩ := completed_queued h
    rw [hstays]
    exact ⟨hcompletion, hheld, by rw [h.chan]; rfl, by rw [h.chan]; rfl, by rw [h.chan]; rfl, hbackground, fun _ => rfl⟩

/-! ## An APPLY in progress (R179) -/

/-- R179: the line at the head switches the channel to its waiting set. -/
theorem serveHead_switches {u : State} {p : ParamSet} (h : Completed c e en k s u) (hq : (s.chan c).capture.queue = [])
    (hk : k ≠ .toAnalyse) (hstate : (s.chan c).record.state = .inspecting) (hp : (s.chan c).waiting = some p) :
    ((serveHead c 3 u).chan c).params = p ∧ ((serveHead c 3 u).chan c).waiting = none := by
  have ho : billetOpen s c = true := by rw [billetOpen, hstate]
  obtain ⟨-, -, -, -, -, -, hrwaiting, -⟩ := reported_rest s.ms (s.chan c)
  have hacted : (actedChan s c).params = p ∧ (actedChan s c).waiting = none := by
    unfold actedChan switched
    rw [if_pos ho, hrwaiting, hp]
    exact ⟨rfl, rfl⟩
  by_cases htail : k = .noBillet
  · subst htail
    obtain ⟨-, -, -, -, hparams, hwaiting, -⟩ := serveHead_ends h hq ho rfl
    exact ⟨hparams.trans hacted.1, hwaiting⟩
  · rw [serveHead_retires h hq hk, actOnHead_switches h hk fun hn => htail hn.1, chan_modChan_same]
    obtain ⟨a, ha⟩ : ∃ a, a = unseenAdded (setChan c (actedLine s c e en k) u) c (addedToRun s c en k) := ⟨_, rfl⟩
    have hac : (a.chan c).params = p ∧ (a.chan c).waiting = none := by
      rw [ha, unseenAdded_chan, unseenChan, chan_setChan_same]
      exact hacted
    rw [← ha]
    change ((blindTest c a).chan c).params = p ∧ ((blindTest c a).chan c).waiting = none
    obtain ⟨hparams, hwaiting⟩ := blindTest_params c a
    rw [hparams, hwaiting]
    exact hac

/-- R179: an APPLY that waits for this channel alone ends DONE with the line. -/
theorem atOnce_endsApply {p : ParamSet} {r : Running} (hs : Accepting s) (hr : s.setup.command = .inProgress r)
    (hrcode : r.code = 1) (hg : s.setup.geometry = some g) (ha : addr.toNat % 8 = 0)
    (hreach : BeatReaches s c j (32 + g.w) addr.toNat) (hasm : (s.chan c).capture.asm = .assembling j)
    (he : assemblingEntry (s.chan c).capture = some e) (hclass : ClassGiven mf s c (entryOf (s.chan c).capture e) k)
    (hcode : atOnceCode k = some code) (hq : (s.chan c).capture.queue = []) (hstate : (s.chan c).record.state = .inspecting)
    (hp : (s.chan c).waiting = some p) (hothers : ∀ d, d ≠ c → (s.chan d).waiting = none) :
    ∃ t, exec (.systemWrite mf addr [b]) s = .next t ∧ (t.chan c).params = p ∧ (t.chan c).waiting = none ∧
      t.setup.command = .ready ∧ WordOffered 0x2000 (doneWord r) t := by
  obtain ⟨u, y, hdone, hy, -, hafter⟩ := atOnce_written (b := b) hs hg hreach hasm he rfl hclass hcode
  have hk := atOnce_notToAnalyse hcode
  have hserve : y = serveHead c 3 u := by rw [← hy, hq]; rfl
  obtain ⟨hparams, hwaiting⟩ := serveHead_switches hdone hq hk hstate hp
  rw [← hserve] at hparams hwaiting
  have hcompletion := (completed_served hdone hk hy).1
  obtain ⟨w, hw⟩ : ∃ w, w = afterWrite mf addr [b] s := ⟨_, rfl⟩
  have hchans : w.chans = y.chans := by rw [hw, hafter]; rfl
  have hcommand : w.setup.command = .inProgress r := by
    rw [hw, ← hr]
    exact congrArg Setup.command (captureWrite_steady s.path.nextId addr.toNat [b] (presented mf s)).setup
  have hnone : ∀ d : Chan, (w.chan d).waiting = none := by
    intro d
    rw [chan_of_chans hchans]
    by_cases hd : d = c
    · rw [hd, hwaiting]
    · rw [(hcompletion.1 d hd).1]
      exact hothers d hd
  obtain ⟨_, hsettled, -⟩ := settleCommand_offersOnly w
  obtain ⟨hready, hword⟩ := settleCommand_apply_done hcommand hrcode hnone
  have hchan : (settleCommand w).chan c = y.chan c := (chan_of_chans hsettled.chans c).trans (chan_of_chans hchans c)
  refine ⟨settleCommand w, ?_, by rw [hchan, hparams], by rw [hchan, hwaiting], hready, hword⟩
  rw [exec_systemWrite_settles hs ha le_rfl (by simp) (clearOfSetup_one b (region_reaches hreach)), hw]

end Trailer

end Sys2Proof.Machine
end

section
/-! Lines without an entry of their own (R8, R10, R14), and the header beats that end them (R6, R22). -/

namespace Sys2Proof.Machine

open Sys2Proof.Safety

/-! ## The unseen contribution of a line without an entry (R14) -/

theorem placeUnseen_queue {c : Chan} {s : State} {y : Fin 2} (h : (s.chan c).capture.queue.getLast? = some y) :
    placeUnseen c s =
      setChan c
        { s.chan c with
          capture := setEntry (s.chan c).capture y
            { entryOf (s.chan c).capture y with
              unseenAfter := min ((entryOf (s.chan c).capture y).unseenAfter + 1) 65535 } } s := by
  unfold placeUnseen
  rw [h]
  rfl

theorem placeUnseen_run {c : Chan} {s : State} (h : (s.chan c).capture.queue.getLast? = none)
    (hblind : NotBlind s c (min ((s.chan c).capture.unseenRun + 1) 65535)) : placeUnseen c s = unseenAdded s c 1 := by
  unfold placeUnseen
  rw [h, addUnseen_eq]
  refine blindTest_keeps ?_
  rw [billetOpen_unseenAdded, unseenAdded_chan]
  exact hblind

/-- From `s` to `t` channel `c` becomes `ch`, its counters `k`, and the conditions `bits` are latched; no other channel, nor the
ring writer, is touched. -/
structure LosesLine (c : Chan) (ch : Channel) (k : ChanCounters) (bits : BitVec 16) (s t : State) : Prop where
  only : OnlyChan c s t
  chan : t.chan c = ch
  unrouted : t.unrouted = s.unrouted
  ring : t.ring = s.ring
  counters : t.status.counters = s.status.counters.set c k
  latched : (t.status.words.get c).latched = (s.status.words.get c).latched ||| bits

theorem LosesLine.setChan {c : Chan} {ch : Channel} {k : ChanCounters} {bits : BitVec 16} {s t : State}
    (h : LosesLine c ch k bits s t) (new : Channel) : LosesLine c new k bits s (setChan c new t) :=
  ⟨h.only.trans (modChan_onlyChan c t fun _ => new), chan_setChan_same .., h.unrouted, h.ring, h.counters, h.latched⟩

/-! ## The line in progress abandoned (R8) -/

/-- R8: channel `c` with the entry `e` of its line in progress FREE, one line more unplaced. -/
def freedLine (ch : Channel) (e : Fin 2) : Channel :=
  { ch with
    capture := { setEntry ch.capture e Entry.empty with asm := .idle, unplaced := min (ch.capture.unplaced + 1) 65535 } }

theorem setEntry_queue (k : Capture) (e : Fin 2) (v : Entry) :
    (setEntry k e v).queue = k.queue ∧ (setEntry k e v).unseenRun = k.unseenRun ∧ (setEntry k e v).unplaced = k.unplaced := by
  match e with
  | 0 => exact ⟨rfl, rfl, rfl⟩
  | 1 => exact ⟨rfl, rfl, rfl⟩

section Abandon

variable {c : Chan} {e : Fin 2} {s : State}

theorem freedLine_counted (he : assemblingEntry (s.chan c).capture = some e) :
    ∃ v, abandonLine c s = placeUnseen c v ∧
      LosesLine c (freedLine (s.chan c) e)
        { s.status.counters.get c with malformed := min ((s.status.counters.get c).malformed + 1) 65535 } 4 s v := by
  obtain ⟨f, hf⟩ : ∃ f, f = Sys2Proof.Machine.setChan c
      { s.chan c with capture := { setEntry (s.chan c).capture e Entry.empty with asm := .idle } } s := ⟨_, rfl⟩
  have hfreed : modCapture c
      (fun k =>
        match assemblingEntry k with
        | some e => { setEntry k e Entry.empty with asm := .idle }
        | none => { k with asm := .idle }) s = f := by
    rw [hf, modCapture, modChan]
    simp only [he]
  have hcond := countMalformed_conditions c f
  refine ⟨bumpUnplaced c (countMalformed c f), ?_, ?_⟩
  · exact congrArg (fun u => placeUnseen c (bumpUnplaced c (countMalformed c u))) hfreed
  · have hfc : f.chan c =
        { s.chan c with capture := { setEntry (s.chan c).capture e Entry.empty with asm := .idle } } := by
      rw [hf, chan_setChan_same]
    have hstatus : f.status = s.status := by rw [hf]; rfl
    have honly : OnlyChan c s f := by rw [hf]; exact modChan_onlyChan c s fun _ => _
    refine ⟨honly.trans ((countMalformed_onlyChan c f).trans (modCapture_onlyChan c _ _)), ?_, ?_, ?_, ?_, ?_⟩
    · rw [bumpUnplaced, modCapture_chan_same, chan_of_chans hcond.chans, hfc]
      unfold freedLine
      simp only [(setEntry_queue (s.chan c).capture e Entry.empty).2.2]
      rfl
    · exact hcond.unrouted.trans (by rw [hf]; rfl)
    · exact hcond.ring.trans (by rw [hf]; rfl)
    · exact hcond.counters.trans (by rw [hstatus])
    · exact hcond.latched.trans (by rw [hstatus])

/-- R8, R14, R16: the line in progress of a channel that does not go blind is abandoned. -/
theorem abandonLine_loses (he : assemblingEntry (s.chan c).capture = some e)
    (hblind : (s.chan c).capture.queue ≠ [] ∨ NotBlind s c (min ((s.chan c).capture.unseenRun + 1) 65535)) :
    LosesLine c (abandonedChan s c e) (abandonedCounters s c) 4 s (abandonLine c s) := by
  obtain ⟨v, hrun, hlost⟩ := freedLine_counted he
  obtain ⟨hqueue, hunseen, -⟩ := setEntry_queue (s.chan c).capture e Entry.empty
  have hvqueue : (v.chan c).capture.queue = (s.chan c).capture.queue := by rw [hlost.chan]; exact hqueue
  rw [hrun]
  cases hlast : (s.chan c).capture.queue.getLast? with
  | some y =>
    have hne : (s.chan c).capture.queue ≠ [] := by
      intro hnil
      rw [hnil] at hlast
      cases hlast
    have hcounters : abandonedCounters s c =
        { s.status.counters.get c with malformed := min ((s.status.counters.get c).malformed + 1) 65535 } := by
      rw [abandonedCounters, if_neg hne]
    rw [placeUnseen_queue (by rw [hvqueue, hlast]), hcounters, hlost.chan]
    have habandoned : abandonedChan s c e =
        { freedLine (s.chan c) e with
          capture := setEntry (freedLine (s.chan c) e).capture y
            { entryOf (freedLine (s.chan c) e).capture y with
              unseenAfter := min ((entryOf (freedLine (s.chan c) e).capture y).unseenAfter + 1) 65535 } } := by
      unfold abandonedChan
      simp only [hlast]
      rfl
    rw [habandoned]
    exact hlost.setChan _
  | none =>
    have hnil : (s.chan c).capture.queue = [] := List.getLast?_eq_none_iff.1 hlast
    have hcounters : abandonedCounters s c =
        { s.status.counters.get c with
          malformed := min ((s.status.counters.get c).malformed + 1) 65535
          unseen := min ((s.status.counters.get c).unseen + 1) 65535 } := by
      rw [abandonedCounters, if_pos hnil]
    have hopen : billetOpen v c = billetOpen s c := billetOpen_congr (by rw [hlost.chan]; rfl)
    have hrunseen : (v.chan c).capture.unseenRun = (s.chan c).capture.unseenRun := by rw [hlost.chan]; exact hunseen
    have hnotBlind : NotBlind v c (min ((v.chan c).capture.unseenRun + 1) 65535) := by
      unfold NotBlind
      rw [hopen, hrunseen, hlost.chan]
      exact hblind.resolve_left fun hne => hne hnil
    rw [placeUnseen_run (by rw [hvqueue, hlast]) hnotBlind]
    obtain ⟨honly, hunrouted, hring, -, hwords, -, hucounters⟩ := unseenAdded_rest v c 1
    refine ⟨hlost.only.trans honly, ?_, hunrouted.trans hlost.unrouted, hring.trans hlost.ring, ?_, ?_⟩
    · have htally : unseenTally v c 1 = unseenTally s c 1 := unseenTally_congr 1 hopen (by rw [hlost.chan]; rfl)
      rw [unseenAdded_chan, unseenChan, htally, hlost.chan]
      unfold abandonedChan
      simp only [hlast]
      rfl
    · rw [hucounters, hlost.counters, Bank16.get_set_same, Bank16.set_set, hcounters]
    · rw [hwords]; exact hlost.latched

end Abandon

/-! ## A line skipped (R10) -/

/-- R10, R14: a line that finds no FREE entry, with lines queued. -/
theorem skipLine_loses {c : Chan} {s : State} {y : Fin 2} (j : Nat) (h : (s.chan c).capture.queue.getLast? = some y) :
    LosesLine c
      { s.chan c with
        capture :=
          { setEntry (s.chan c).capture y
              { entryOf (s.chan c).capture y with
                unseenAfter := min ((entryOf (s.chan c).capture y).unseenAfter + 1) 65535 } with
            asm := .skipping j
            unplaced := min ((s.chan c).capture.unplaced + 1) 65535 } }
      { s.status.counters.get c with skippedBusy := min ((s.status.counters.get c).skippedBusy + 1) 65535 } 2 s
      (skipLine c j s) := by
  obtain ⟨f, hf⟩ : ∃ f, f = modCounters c (fun k => { k with skippedBusy := sat16 (k.skippedBusy + 1) })
      (modCapture c (fun k => { k with asm := .skipping j }) s) := ⟨_, rfl⟩
  have hlatch := latchChan_latches c .skippedBusy f
  have hfc : f.chan c = { s.chan c with capture := { (s.chan c).capture with asm := .skipping j } } := by
    rw [hf]
    change (modCapture c (fun k => { k with asm := .skipping j }) s).chan c = _
    rw [modCapture_chan_same]
  have honly : OnlyChan c s f := by rw [hf]; exact (modCapture_onlyChan c s _).trans (modCounters_onlyChan c _ c _)
  obtain ⟨v, hv⟩ : ∃ v, v = bumpUnplaced c (latchChan c .skippedBusy f) := ⟨_, rfl⟩
  have hvc : v.chan c =
      { s.chan c with
        capture :=
          { (s.chan c).capture with
            asm := .skipping j, unplaced := min ((s.chan c).capture.unplaced + 1) 65535 } } := by
    rw [hv, bumpUnplaced, modCapture_chan_same, chan_of_chans hlatch.offers.chans, hfc]
    rfl
  have hrun : skipLine c j s = placeUnseen c v := by rw [hv, hf]; rfl
  rw [hrun, placeUnseen_queue (by rw [hvc]; exact h), hvc]
  have hvonly : OnlyChan c s v := by
    rw [hv]
    exact honly.trans ((latchChan_onlyChan c f _).trans (modCapture_onlyChan c _ _))
  refine ⟨hvonly.trans (modChan_onlyChan c v fun _ => _), ?_, ?_, ?_, ?_, ?_⟩
  · rw [chan_setChan_same]
    match y with
    | 0 => rfl
    | 1 => rfl
  · rw [hv]; exact hlatch.offers.unrouted.trans (by rw [hf]; rfl)
  · rw [hv]; exact hlatch.offers.ring.trans (by rw [hf]; rfl)
  · rw [hv]; exact hlatch.offers.counters.trans (by rw [hf]; rfl)
  · rw [hv]; exact hlatch.latched.trans (by rw [hf]; rfl)

theorem startLine_skips {c : Chan} {s : State} (j : Nat) (b : Beat) (h0 : (s.chan c).capture.e0.state ≠ .free)
    (h1 : (s.chan c).capture.e1.state ≠ .free) : startLine c j b s = skipLine c j s := by
  have hclaim : claimEntry (s.chan c).capture = none := by rw [claimEntry, if_neg h0, if_neg h1]
  rw [startLine, hclaim]

/-! ## What another channel has at the replay slot (R22) -/

theorem endOther_none {j : Nat} {c d : Chan} {s : State}
    (h : d ≠ c → replays s d = true → (s.chan d).capture.asm ≠ .assembling j ∧ (s.chan d).capture.asm ≠ .skipping j) :
    endOther j c s d = s := by
  unfold endOther
  split
  · next hd =>
    obtain ⟨hasm, hskip⟩ := h hd.1 hd.2
    cases hk : (s.chan d).capture.asm with
    | idle => rfl
    | assembling k =>
      simp only
      exact if_neg fun hkj => hasm (by rw [hk, hkj])
    | skipping k =>
      simp only
      exact if_neg fun hkj => hskip (by rw [hk, hkj])
  · rfl

theorem endOthers_none {j : Nat} {c : Chan} {s : State} (ds : List Chan) (h : ∀ d ∈ ds, endOther j c s d = s) :
    ds.foldl (endOther j c) s = s := by
  induction ds with
  | nil => rfl
  | cons d ds ih =>
    rw [List.foldl_cons, h d (List.mem_cons_self ..)]
    exact ih fun x hx => h x (List.mem_cons_of_mem d hx)

/-- R22: with one other channel at the slot, that one alone is ended. -/
theorem endOthers_one {j : Nat} {c d : Chan} {s : State}
    (h : ∀ x : Chan, x ≠ c → x ≠ d → replays s x = true →
      (s.chan x).capture.asm ≠ .assembling j ∧ (s.chan x).capture.asm ≠ .skipping j) :
    allChans.foldl (endOther j c) s = endOther j c s d := by
  have hnodup : allChans.Nodup := by decide
  obtain ⟨pre, post, hsplit⟩ := List.append_of_mem (mem_allChans d)
  rw [hsplit] at hnodup
  have hpre : ∀ x ∈ pre, x ≠ d := fun x hx hxd =>
    (List.nodup_append.1 hnodup).2.2 x hx d (List.mem_cons_self ..) hxd
  have hpost : ∀ x ∈ post, x ≠ d := fun x hx hxd =>
    (List.nodup_cons.1 (List.nodup_append.1 hnodup).2.1).1 (hxd ▸ hx)
  have hafter : ∀ x ∈ post, endOther j c (endOther j c s d) x = endOther j c s d := by
    intro x hx
    have hchan : (endOther j c s d).chan x = s.chan x := (endOther_onlyChan j c s d).others x (hpost x hx)
    refine endOther_none fun hxc hreplays => ?_
    rw [hchan]
    refine h x hxc (hpost x hx) ?_
    rw [← hreplays]
    unfold replays watches
    rw [hchan]
  rw [hsplit, List.foldl_append, endOthers_none pre fun x hx => endOther_none fun hxc hr => h x hxc (hpre x hx) hr,
    List.foldl_cons, endOthers_none post hafter]

theorem endOther_skipping {j : Nat} {c d : Chan} {s : State} (hd : d ≠ c) (hr : replays s d = true)
    (hasm : (s.chan d).capture.asm = .skipping j) :
    endOther j c s d = setChan d { s.chan d with capture := { (s.chan d).capture with asm := .idle } } s := by
  rw [endOther, if_pos ⟨hd, hr⟩, hasm]
  exact if_pos rfl

theorem endOther_assembling {j : Nat} {c d : Chan} {s : State} (hd : d ≠ c) (hr : replays s d = true)
    (hasm : (s.chan d).capture.asm = .assembling j) : endOther j c s d = abandonLine d s := by
  rw [endOther, if_pos ⟨hd, hr⟩, hasm]
  exact if_pos rfl

/-- R22: a written header beat 0 routed to channel `c`, with one other channel perhaps at the slot. -/
theorem takeBeat_routed {x : Acceptance} {c d : Chan} {j a : Nat} {b : Beat} (id i : Nat) (hroute : RoutedTo x.st c j a b)
    (h : ∀ y : Chan, y ≠ c → y ≠ d → replays x.st y = true →
      (x.st.chan y).capture.asm ≠ .assembling j ∧ (x.st.chan y).capture.asm ≠ .skipping j)
    (hunrouted : (endOther j c x.st d).unrouted = x.st.unrouted) :
    takeBeat id i a b x =
      { x with st := headerBeat c j b { endOther j c x.st d with unrouted := unroutedAfter x.st j a } } := by
  obtain ⟨hb, hreg, hr, h4, h5, hc⟩ := hroute
  have hkind : beatKind (heldW x.st) 0 = .content 0 := by rw [beatKind_content (by omega)]
  have hun : clearUnrouted j (endOther j c x.st d) =
      { endOther j c x.st d with unrouted := unroutedAfter x.st j a } := by
    unfold clearUnrouted unroutedAfter
    rw [hunrouted]
    by_cases hj : x.st.unrouted = some j
    · rw [if_pos hj, if_pos ⟨hreg, hj⟩]
    · rw [if_neg hj, if_neg fun h => hj h.2, ← hunrouted]
  rw [takeBeat_replay id i hreg, replayBeat, hkind]
  simp only
  rw [if_neg hb, if_pos trivial, replayHeader, routedChan_some hr h4 h5 hc]
  simp only
  rw [endOthers_one h, hun]

end Sys2Proof.Machine
end

section
/-! The trailer of any other line (R8 to R10, R15 to R17, R19, R22, R30, R179). -/

namespace Sys2Proof.Machine

open Sys2Proof.Safety

section Beats

variable {mf : BitVec 8} {addr : BitVec 40} {b : Beat} {g : Geometry} {s : State}

/-- R10: the trailer beat of a line that is being skipped. -/
theorem skipped_written {c : Chan} {j : Nat} (hs : Accepting s) (hr : s.setup.command = .ready)
    (hg : s.setup.geometry = some g) (ha : addr.toNat % 8 = 0) (hreach : BeatReaches s c j (32 + g.w) addr.toNat)
    (hasm : (s.chan c).capture.asm = .skipping j) :
    exec (.systemWrite mf addr [b]) s =
      .next
        (setChan c { s.chan c with capture := { (s.chan c).capture with asm := .idle } }
          (listedWrite mf addr [{ data := 6, enables := 255 }] s)) := by
  have hslot : asmSlot (s.chan c).capture = some j := asmSlot_eq_some.2 (.inr hasm)
  have htrailer := takeBeat_trailer (x := untaken (presented mf s)) (w := g.w) (b := b) s.path.nextId 0 (heldW_geometry hg)
    hreach le_rfl (by omega) hslot
  have hown : ownTrailer c s.path.nextId 0 (untaken (presented mf s)) =
      { untaken (presented mf s) with
        st := setChan c { s.chan c with capture := { (s.chan c).capture with asm := .idle } } (presented mf s)
        rewrites := [(0, plainWord .skippedBusy)] } := by
    unfold ownTrailer
    rw [show ((untaken (presented mf s)).st.chan c).capture.asm = .skipping j from hasm]
    rfl
  rw [exec_oneBeat hs hr ha (region_reaches hreach) (htrailer.trans hown) rfl, watchNow_geometry hs.1 hg, plainWord_eq]
  rfl

/-- R19: the trailer beat of the unrouted replay slot. -/
theorem unrouted_written {j : Nat} (hs : Accepting s) (hr : s.setup.command = .ready)
    (hg : s.setup.geometry = some g) (ha : addr.toNat % 8 = 0) (hreg : regionOf s addr.toNat = .replay j (32 + g.w))
    (hnobody : NobodyAt s j) (hun : s.unrouted = some j) :
    exec (.systemWrite mf addr [b]) s =
      .next { listedWrite mf addr [{ data := 13, enables := 255 }] s with unrouted := none } := by
  have hw : heldW (presented mf s) = g.w := heldW_geometry hg
  have htake : takeBeat s.path.nextId 0 addr.toNat b (untaken (presented mf s)) =
      { untaken (presented mf s) with
        st := { presented mf s with unrouted := none }, rewrites := [(0, plainWord .notRouted)] } := by
    rw [takeBeat_replay (x := untaken (presented mf s)) (j := j) (o := 32 + g.w) _ _ hreg, replayBeat]
    rw [show (untaken (presented mf s)).st = presented mf s from rfl, hw, beatKind_trailer le_rfl (by omega)]
    simp only
    rw [replayOwner_nobody (s := presented mf s) hnobody]
    exact if_pos hun
  rw [exec_oneBeat hs hr ha (fun o h => by rw [hreg] at h; cases h) htake rfl, watchNow_geometry hs.1 hg, plainWord_eq]
  rfl

/-- R6, R22: the state in which a header beat 0 that reaches slot `j` acts. -/
def headed (mf : BitVec 8) (j a : Nat) (s : State) : State := { presented mf s with unrouted := unroutedAfter s j a }

/-- R6: a header beat 0 is forwarded unchanged. -/
theorem header_written {c : Chan} {j : Nat} (hs : Accepting s) (hr : s.setup.command = .ready)
    (hg : s.setup.geometry = some g) (ha : addr.toNat % 8 = 0) (hreach : HeaderReaches s c j addr.toNat b) :
    exec (.systemWrite mf addr [b]) s =
        .next
          (listTxn { id := s.path.nextId, addr := addr.toNat, body := .write [b], held := false, watch := .all }
            (headerBeat c j b (headed mf j addr.toNat s))) ∧
      (headerBeat c j b (headed mf j addr.toNat s)).path.list = s.path.list := by
  have htake := takeBeat_header (x := untaken (presented mf s)) s.path.nextId 0 hreach
  have hlist := captureWrite_list s.path.nextId addr.toNat [b] (presented mf s)
  rw [captureWrite_taken (a := addr.toNat) (beats := [b]) htake] at hlist
  rw [exec_oneBeat hs hr ha (region_reaches hreach.2.1) htake rfl, watchNow_geometry hs.1 hg]
  exact ⟨rfl, hlist⟩

/-- What the statement tells of a header beat 0 with which one line is lost, once its effects are known. -/
theorem header_loses {c : Chan} {j : Nat} {ch : Channel} {k : ChanCounters} {bits : BitVec 16} (hs : Accepting s)
    (hr : s.setup.command = .ready) (hg : s.setup.geometry = some g) (ha : addr.toNat % 8 = 0)
    (hreach : HeaderReaches s c j addr.toNat b)
    (hlost : LosesLine c ch k bits (headed mf j addr.toNat s) (headerBeat c j b (headed mf j addr.toNat s))) :
    ∃ t, exec (.systemWrite mf addr [b]) s = .next t ∧ t.path.list = (listedWrite mf addr [b] s).path.list ∧
      t.chan c = ch ∧ (∀ d, d ≠ c → t.chan d = s.chan d) ∧ t.unrouted = unroutedAfter s j addr.toNat ∧ t.ring = s.ring ∧
      t.status.counters = s.status.counters.set c k ∧
      (t.status.words.get c).latched = (s.status.words.get c).latched ||| bits := by
  obtain ⟨hexec, hlist⟩ := header_written (mf := mf) hs hr hg ha hreach
  exact ⟨_, hexec, congrArg (fun l => l ++ _) hlist, hlost.chan, fun d hd => hlost.only.others d hd, hlost.unrouted, hlost.ring,
    hlost.counters, hlost.latched⟩

/-- R10: a header beat 0 that finds no FREE entry. -/
theorem header_skips {c : Chan} {j : Nat} {y : Fin 2} (hs : Accepting s) (hr : s.setup.command = .ready)
    (hg : s.setup.geometry = some g) (ha : addr.toNat % 8 = 0) (hreach : HeaderReaches s c j addr.toNat b)
    (hasm : ∀ k, (s.chan c).capture.asm ≠ .assembling k) (h0 : (s.chan c).capture.e0.state ≠ .free)
    (h1 : (s.chan c).capture.e1.state ≠ .free) (hy : (s.chan c).capture.queue.getLast? = some y) :
    ∃ t, exec (.systemWrite mf addr [b]) s = .next t ∧ t.path.list = (listedWrite mf addr [b] s).path.list ∧
      t.chan c =
        { s.chan c with
          capture :=
            { setEntry (s.chan c).capture y
                { entryOf (s.chan c).capture y with
                  unseenAfter := min ((entryOf (s.chan c).capture y).unseenAfter + 1) 65535 } with
              asm := .skipping j
              unplaced := min ((s.chan c).capture.unplaced + 1) 65535 } } ∧
      (∀ d, d ≠ c → t.chan d = s.chan d) ∧ t.unrouted = unroutedAfter s j addr.toNat ∧ t.ring = s.ring ∧
      t.status.counters = s.status.counters.set c
        { s.status.counters.get c with skippedBusy := min ((s.status.counters.get c).skippedBusy + 1) 65535 } ∧
      (t.status.words.get c).latched = (s.status.words.get c).latched ||| 2 := by
  refine header_loses hs hr hg ha hreach ?_
  have hheader : headerBeat c j b (headed mf j addr.toNat s) = skipLine c j (headed mf j addr.toNat s) :=
    (headerBeat_starts (s := headed mf j addr.toNat s) b hasm).trans (startLine_skips (s := headed mf j addr.toNat s) j b h0 h1)
  rw [hheader]
  exact skipLine_loses (s := headed mf j addr.toNat s) j hy

/-- R8: a header beat 0 of another slot abandons the line in progress, and starts the new one. -/
theorem header_abandons {c : Chan} {j k : Nat} {e f : Fin 2} (hs : Accepting s) (hr : s.setup.command = .ready)
    (hg : s.setup.geometry = some g) (ha : addr.toNat % 8 = 0) (hreach : HeaderReaches s c j addr.toNat b)
    (hasm : (s.chan c).capture.asm = .assembling k) (hkj : k ≠ j) (he : assemblingEntry (s.chan c).capture = some e)
    (hblind : (s.chan c).capture.queue ≠ [] ∨ NotBlind s c (min ((s.chan c).capture.unseenRun + 1) 65535))
    (hclaim : Claimed (abandonedChan s c e).capture f) :
    ∃ t new, exec (.systemWrite mf addr [b]) s = .next t ∧ StartedEntry j b new ∧
      t.path.list = (listedWrite mf addr [b] s).path.list ∧
      t.chan c =
        { abandonedChan s c e with
          capture := { setEntry (abandonedChan s c e).capture f new with asm := .assembling j } } ∧
      (∀ d, d ≠ c → t.chan d = s.chan d) ∧ t.unrouted = unroutedAfter s j addr.toNat ∧ t.ring = s.ring ∧
      t.status.counters = s.status.counters.set c (abandonedCounters s c) ∧
      (t.status.words.get c).latched = (s.status.words.get c).latched ||| 4 := by
  have hlost := abandonLine_loses (s := headed mf j addr.toNat s) he hblind
  have hheader : headerBeat c j b (headed mf j addr.toNat s) =
      startLine c j b (abandonLine c (headed mf j addr.toNat s)) := by
    unfold headerBeat
    rw [show ((headed mf j addr.toNat s).chan c).capture.asm = .assembling k from hasm]
    exact if_neg hkj
  obtain ⟨new, hnew, hstart⟩ := startLine_claims (c := c) (s := abandonLine c (headed mf j addr.toNat s)) (e := f)
    (claimEntry_eq (by rw [hlost.chan]; exact hclaim.1) (by rw [hlost.chan]; exact hclaim.2)) j b
  rw [hlost.chan] at hstart
  have hwhole := hlost.setChan
    { abandonedChan s c e with capture := { setEntry (abandonedChan s c e).capture f new with asm := .assembling j } }
  obtain ⟨t, hexec, hrest⟩ := header_loses (mf := mf) hs hr hg ha hreach
    (by rw [hheader]; exact hstart.symm ▸ hwhole)
  exact ⟨t, new, hexec, hnew, hrest⟩

end Beats

section Routed

variable {mf : BitVec 8} {addr : BitVec 40} {b : Beat} {g : Geometry} {s : State} {c d : Chan} {j : Nat} {f : Fin 2}

/-- R6, R22: a routed header beat 0 starts its line after another channel has been ended at the slot. -/
theorem routed_written (hs : Accepting s) (hr : s.setup.command = .ready) (hg : s.setup.geometry = some g)
    (ha : addr.toNat % 8 = 0) (hroute : RoutedTo s c j addr.toNat b) (hd : d ≠ c)
    (hothers : ∀ x : Chan, x ≠ c → x ≠ d → replays s x = true →
      (s.chan x).capture.asm ≠ .assembling j ∧ (s.chan x).capture.asm ≠ .skipping j)
    (hasm : ∀ k, (s.chan c).capture.asm ≠ .assembling k) (hclaim : Claimed (s.chan c).capture f) {u : State}
    (hu : endOther j c (presented mf s) d = u) (hunrouted : u.unrouted = s.unrouted) :
    ∃ new, StartedEntry j b new ∧ u.path.list = s.path.list ∧
      exec (.systemWrite mf addr [b]) s =
        .next
          (listTxn { id := s.path.nextId, addr := addr.toNat, body := .write [b], held := false, watch := .all }
            (setChan c
              { s.chan c with capture := { setEntry (s.chan c).capture f new with asm := .assembling j } }
              { u with unrouted := unroutedAfter s j addr.toNat })) := by
  obtain ⟨v, hv⟩ : ∃ v, v = { u with unrouted := unroutedAfter s j addr.toNat } := ⟨_, rfl⟩
  have huc : u.chan c = s.chan c := by
    rw [← hu]
    exact (endOther_onlyChan j c (presented mf s) d).others c (Ne.symm hd)
  have hvc : v.chan c = s.chan c := by rw [hv]; exact huc
  have htake := takeBeat_routed (x := untaken (presented mf s)) (d := d) s.path.nextId 0 hroute hothers
    (by rw [show (untaken (presented mf s)).st = presented mf s from rfl, hu]; exact hunrouted)
  rw [show (untaken (presented mf s)).st = presented mf s from rfl, hu,
    show unroutedAfter (presented mf s) j addr.toNat = unroutedAfter s j addr.toNat from rfl, ← hv,
    headerBeat_starts b (by rw [hvc]; exact hasm)] at htake
  obtain ⟨new, hnew, hstart⟩ := startLine_claims (s := v)
    (claimEntry_eq (k := (v.chan c).capture) (by rw [hvc]; exact hclaim.1) (by rw [hvc]; exact hclaim.2)) j b
  rw [hstart, hvc] at htake
  have hlist := captureWrite_list s.path.nextId addr.toNat [b] (presented mf s)
  rw [captureWrite_taken (a := addr.toNat) (beats := [b]) htake] at hlist
  refine ⟨new, hnew, ?_, ?_⟩
  · have hvlist : v.path.list = u.path.list := by rw [hv]
    exact hvlist.symm.trans hlist
  · obtain ⟨-, hreg, -⟩ := hroute
    rw [exec_oneBeat hs hr ha (fun o h => by rw [hreg] at h; cases h) htake rfl, watchNow_geometry hs.1 hg, ← hv]
    rfl

end Routed

/-- Settles O21: a line of any other class, an APPLY that ends with it, and the lines that are skipped, unrouted or abandoned. -/
theorem trailerOfAnyOtherLineIsRewrittenAtOnce : Obligations.TrailerOfAnyOtherLineIsRewrittenAtOnce := by
  refine ⟨?_, fun mf addr b c j e g k code p r s hs hr hrcode hg ha hreach hasm he hclass hcode hq hstate hp hothers =>
    atOnce_endsApply hs hr hrcode hg ha hreach hasm he hclass hcode hq hstate hp hothers,
    fun mf addr b g s hs hr hg ha => ⟨fun c j hreach hasm => skipped_written hs hr hg ha hreach hasm,
      fun j hreg hnobody hun => unrouted_written hs hr hg ha hreg hnobody hun,
      fun c j y hreach hasm h0 h1 hy => header_skips hs hr hg ha hreach hasm h0 h1 hy,
      fun c j k e f hreach hasm hkj he hblind hclaim =>
        header_abandons hs hr hg ha hreach hasm hkj he hblind hclaim,
      fun c d j f hroute hd hrd hothers hasm hclaim => ⟨fun x hdasm hx hblind => ?_, fun hdskip => ?_⟩⟩⟩
  · intro mf addr b c j e en g k code s hs hr hg ha hreach hasm he hen hclass hcode
    obtain ⟨u, y, hdone, hy, hlist, hafter⟩ := atOnce_written (b := b) hs hg hreach hasm he hen hclass hcode
    have hk := atOnce_notToAnalyse hcode
    obtain ⟨hcompletion, hheld, hidle, hlast, hunplaced, hbackground, hqueued⟩ := completed_served hdone hk hy
    refine ⟨_, (exec_atOnce hs hr ha hreach).trans (congrArg Host.Outcome.next hafter), hcompletion,
      congrArg (fun l => l ++ _) hlist, hheld, hidle, hlast, hunplaced, hbackground, fun hne => ?_, fun ch n hq hn hch => ?_⟩
    · obtain ⟨-, -, -, hunseen⟩ := completed_queued hdone
      obtain rfl : y = u := hqueued hne
      exact ⟨hdone.chan, hdone.strands, hdone.ring, hdone.part, hunseen⟩
    · have hserve : serveHead c 3 u = y := by rw [← hy, show (s.chan c).capture.queue.isEmpty = true by rw [hq]; rfl]; rfl
      obtain rfl : ch = actedChan (presented mf s) c := hch
      subst hn
      refine ⟨?_, fun htail hrun => ?_, fun hne ho hrun => ?_, fun hno ho => ?_⟩
      · rw [← hserve]
        exact (serveHead_served hdone hq hk).unseen
      · obtain ⟨hchan, hstrands, hring, hpart⟩ := serveHead_passes hdone hq hk htail hrun
        rw [hserve] at hchan hstrands hring hpart
        exact ⟨hchan, hstrands.trans hdone.strands, hring.trans hdone.ring, hpart.trans hdone.part⟩
      · exact serveHead_blinds (t := y) hdone hq hk hne ho hrun hserve
      · subst hno
        exact serveHead_ends (t := y) hdone hq ho hserve
  · have hlost := abandonLine_loses (s := presented mf s) hx hblind
    have hu := endOther_assembling (s := presented mf s) hd hrd hdasm
    obtain ⟨new, hnew, hlist, hexec⟩ := routed_written (mf := mf) hs hr hg ha hroute hd hothers hasm hclaim hu hlost.unrouted
    refine ⟨_, new, hexec, hnew, congrArg (fun l => l ++ _) hlist, chan_setChan_same .., ?_, fun y hyc hyd => ?_, rfl, hlost.ring,
      hlost.counters, hlost.latched⟩
    · exact (chan_setChan_other _ _ hd).trans hlost.chan
    · exact (chan_setChan_other _ _ hyc).trans (hlost.only.others y hyd)
  · have hu := endOther_skipping (s := presented mf s) hd hrd hdskip
    obtain ⟨new, hnew, -, hexec⟩ := routed_written (mf := mf) hs hr hg ha hroute hd hothers hasm hclaim hu rfl
    exact ⟨new, hnew, hexec⟩

end Sys2Proof.Machine
end

section
/-! The figures of a line's analysis (R51 to R67), column by column as the statements tell them. -/

namespace Sys2Proof.Machine

open Sys2Proof.Safety

section Figures

variable (w : Nat) (q : ChanParams) (pix : Nat → Nat) (bg : Store (Nat × Nat))

/-! ## The columns (R51, R52) -/

theorem interior_eq : interior w q pix bg = (interiorColumns w q).map (columnAt pix bg) := by
  rw [interior, interiorCount, interiorColumns, List.range'_eq_map_range]

theorem mem_interiorColumns {x : Nat} :
    x ∈ interiorColumns w q ↔ q.mLo ≤ x ∧ x < q.mLo + (w - q.mLo - q.mHi) := by
  simp only [interiorColumns, List.mem_map, List.mem_range]
  exact ⟨fun ⟨i, hi, hx⟩ => by omega, fun ⟨hlo, hhi⟩ => ⟨x - q.mLo, by omega, by omega⟩⟩

theorem isInterior_iff {x : Nat} : isInterior w q x = true ↔ x ∈ interiorColumns w q := by
  rw [mem_interiorColumns, isInterior, interiorCount, Bool.and_eq_true, decide_eq_true_eq, decide_eq_true_eq]

theorem interiorColumns_pairwise : (interiorColumns w q).Pairwise (· < ·) := by
  unfold interiorColumns
  exact (List.pairwise_lt_range).map _ fun _ _ h => Nat.add_lt_add_left h _

theorem mem_openColumns {x : Nat} : x ∈ openColumns w q pix ↔ x ∈ interiorColumns w q ∧ pix x < q.satLevel := by
  rw [openColumns, List.mem_filter, decide_eq_true_eq]

theorem saturated_columnAt (x : Nat) : saturated q (columnAt pix bg x) = decide (q.satLevel ≤ pix x) := rfl

theorem not_saturated_columnAt (x : Nat) : (!saturated q (columnAt pix bg x)) = decide (pix x < q.satLevel) := by
  rw [saturated_columnAt, ← decide_not]
  exact decide_eq_decide.2 Nat.not_le

theorem unsaturated_eq : unsaturated q (interior w q pix bg) = (openColumns w q pix).map (columnAt pix bg) := by
  rw [unsaturated, interior_eq, List.filter_map, openColumns]
  exact congrArg (List.map (columnAt pix bg)) (List.filter_congr fun x _ => not_saturated_columnAt q pix bg x)

/-- R52: the line is obscured as the statement tells it. -/
theorem isObscured_iff : isObscured q (interior w q pix bg) = true ↔ ObscuredLine w q pix := by
  rw [isObscured, decide_eq_true_eq, saturatedCount, interior_eq, List.length_map, List.filter_map, List.length_map]
  rfl

/-! ## The threshold (R54 to R57) -/

theorem noise_eq : noise q (interior w q pix bg) =
    ((openColumns w q pix).map fun x => (residualAt pix bg x).natAbs).sum / (openColumns w q pix).length := by
  rw [noise, unsaturated_eq, List.map_map, List.length_map]
  rfl

theorem rawThreshold_eq : rawThreshold q (noise q (interior w q pix bg)) = rawThresholdOf w q pix bg := by
  rw [noise_eq]
  rfl

theorem threshold_eq : threshold q (noise q (interior w q pix bg)) = thresholdOf w q pix bg := by
  rw [threshold, rawThreshold_eq]
  rfl

theorem clampedThreshold_iff : clampedThreshold q (noise q (interior w q pix bg)) = true ↔
    65535 < rawThresholdOf w q pix bg ∨ 65280 < thresholdOf w q pix bg := by
  rw [clampedThreshold, rawThreshold_eq, threshold_eq, Bool.or_eq_true, decide_eq_true_eq, decide_eq_true_eq]

/-! ## The dark columns (R58) -/

theorem isDark_columnAt (x : Nat) : isDark q (thresholdOf w q pix bg) (columnAt pix bg x) =
    (decide ((thresholdOf w q pix bg : Int) ≤ residualAt pix bg x) && decide (pix x < q.satLevel)) := by
  rw [isDark, not_saturated_columnAt, Bool.and_comm]
  rfl

theorem dark_eq : (interior w q pix bg).filter (isDark q (thresholdOf w q pix bg)) =
    (darkColumns w q pix bg).map (columnAt pix bg) := by
  rw [interior_eq, List.filter_map, darkColumns, openColumns, List.filter_filter]
  exact congrArg (List.map (columnAt pix bg)) (List.filter_congr fun x _ => isDark_columnAt w q pix bg x)

theorem mem_darkColumns {x : Nat} : x ∈ darkColumns w q pix bg ↔
    x ∈ openColumns w q pix ∧ (thresholdOf w q pix bg : Int) ≤ residualAt pix bg x := by
  rw [darkColumns, List.mem_filter, decide_eq_true_eq]

theorem isDark_iff {x : Nat} (hx : x ∈ interiorColumns w q) :
    isDark q (thresholdOf w q pix bg) (columnAt pix bg x) = true ↔ x ∈ darkColumns w q pix bg := by
  rw [isDark_columnAt, Bool.and_eq_true, decide_eq_true_eq, decide_eq_true_eq, mem_darkColumns, mem_openColumns]
  exact ⟨fun ⟨hr, hp⟩ => ⟨⟨hx, hp⟩, hr⟩, fun ⟨⟨_, hp⟩, hr⟩ => ⟨hr, hp⟩⟩

theorem isForced_iff {x : Nat} (hx : x ∈ interiorColumns w q) :
    isForced q (thresholdOf w q pix bg) (columnAt pix bg x) = true ↔
      x ∈ darkColumns w q pix bg ∧ q.l ≤ (readStore (0, 0) bg x).2 + 1 := by
  rw [isForced, Bool.and_eq_true, isDark_iff w q pix bg hx, decide_eq_true_eq]
  rfl

theorem darkColumns_pairwise : (darkColumns w q pix bg).Pairwise (· < ·) := by
  have h := interiorColumns_pairwise w q
  unfold darkColumns openColumns
  exact (h.filter _).filter _

/-! ## The background (R49, R50, R59 to R61) -/

theorem readStore_updated (pair : Column → Nat × Nat) {x : Nat} (hx : x < w) :
    readStore (0, 0) (updatedBackground w q pix bg pair) x =
      if x ∈ interiorColumns w q then pair (columnAt pix bg x) else readStore (0, 0) bg x := by
  rw [updatedBackground, readStore_storeOfFn, if_pos ⟨Nat.zero_le x, by omega⟩]
  exact if_congr (isInterior_iff w q) rfl rfl

theorem seeded_column {x : Nat} (hx : x < w) :
    readStore (0, 0) (updatedBackground w q pix bg seedPair) x =
      if q.mLo ≤ x ∧ x < q.mLo + (w - q.mLo - q.mHi) then (256 * pix x, 0) else readStore (0, 0) bg x := by
  rw [readStore_updated w q pix bg seedPair hx]
  exact if_congr (mem_interiorColumns w q) rfl rfl

theorem warmed_column {x : Nat} (hx : x < w) :
    readStore (0, 0) (updatedBackground w q pix bg (warmupPair q)) x =
      if x ∈ openColumns w q pix then movedPair q pix bg x else readStore (0, 0) bg x := by
  rw [readStore_updated w q pix bg (warmupPair q) hx]
  by_cases hin : x ∈ interiorColumns w q
  · rw [if_pos hin, warmupPair, saturated_columnAt]
    by_cases hsat : q.satLevel ≤ pix x
    · rw [if_pos (decide_eq_true hsat), if_neg fun h => absurd ((mem_openColumns w q pix).1 h).2 (Nat.not_lt.2 hsat)]
      rfl
    · rw [if_neg (by rw [decide_eq_true_eq]; exact hsat), if_pos ((mem_openColumns w q pix).2 ⟨hin, Nat.not_le.1 hsat⟩)]
      rfl
  · rw [if_neg hin, if_neg fun h => hin ((mem_openColumns w q pix).1 h).1]

theorem analysed_column {x : Nat} (hx : x < w) :
    readStore (0, 0) (updatedBackground w q pix bg (ordinaryPair q (thresholdOf w q pix bg))) x =
      if x ∈ darkColumns w q pix bg then
        if q.l ≤ (readStore (0, 0) bg x).2 + 1 then movedPair q pix bg x
        else ((readStore (0, 0) bg x).1, (readStore (0, 0) bg x).2 + 1)
      else if x ∈ openColumns w q pix then movedPair q pix bg x else readStore (0, 0) bg x := by
  rw [readStore_updated w q pix bg _ hx]
  by_cases hin : x ∈ interiorColumns w q
  · rw [if_pos hin, ordinaryPair, saturated_columnAt]
    by_cases hsat : q.satLevel ≤ pix x
    · have hopen : x ∉ openColumns w q pix := fun h => absurd ((mem_openColumns w q pix).1 h).2 (Nat.not_lt.2 hsat)
      rw [if_pos (decide_eq_true hsat), if_neg fun h => hopen ((mem_darkColumns w q pix bg).1 h).1, if_neg hopen]
      rfl
    · rw [if_neg (by rw [decide_eq_true_eq]; exact hsat)]
      by_cases hdark : x ∈ darkColumns w q pix bg
      · rw [if_pos ((isDark_iff w q pix bg hin).2 hdark), if_pos hdark]
        by_cases hforced : q.l ≤ (readStore (0, 0) bg x).2 + 1
        · rw [if_pos ((isForced_iff w q pix bg hin).2 ⟨hdark, hforced⟩), if_pos hforced]
          rfl
        · rw [if_neg (mt (isForced_iff w q pix bg hin).1 fun h => hforced h.2), if_neg hforced]
          rfl
      · rw [if_neg (mt (isDark_iff w q pix bg hin).1 hdark), if_neg hdark,
          if_pos ((mem_openColumns w q pix).2 ⟨hin, Nat.not_le.1 hsat⟩)]
        rfl
  · have hopen : x ∉ openColumns w q pix := fun h => hin ((mem_openColumns w q pix).1 h).1
    rw [if_neg hin, if_neg fun h => hopen ((mem_darkColumns w q pix bg).1 h).1, if_neg hopen]

/-! ## Runs, band lines and the dark summary (R62 to R67) -/

theorem wideRuns_eq : wideRuns q (runsOfDark q.br ((darkColumns w q pix bg).map (columnAt pix bg))) =
    wideRunsOf w q pix bg := rfl

theorem forced_iff : (interior w q pix bg).any (isForced q (thresholdOf w q pix bg)) = true ↔
    ∃ x ∈ darkColumns w q pix bg, q.l ≤ (readStore (0, 0) bg x).2 + 1 := by
  rw [interior_eq, List.any_map, List.any_eq_true]
  constructor
  · rintro ⟨x, hx, hf⟩
    exact ⟨x, (isForced_iff w q pix bg hx).1 hf⟩
  · rintro ⟨x, hdark, hl⟩
    have hx := ((mem_openColumns w q pix).1 ((mem_darkColumns w q pix bg).1 hdark).1).1
    exact ⟨x, hx, (isForced_iff w q pix bg hx).2 ⟨hdark, hl⟩⟩

theorem foldl_max_mem (a : Nat) (l : List Nat) : l.foldl max a = a ∨ l.foldl max a ∈ l := by
  induction l generalizing a with
  | nil => exact .inl rfl
  | cons x l ih =>
    rcases ih (max a x) with h | h
    · rw [List.foldl_cons, h]
      rcases Nat.le_total a x with hax | hax
      · rw [Nat.max_eq_right hax]; exact .inr (List.mem_cons_self ..)
      · rw [Nat.max_eq_left hax]; exact .inl rfl
    · exact .inr (List.mem_cons_of_mem _ h)

theorem le_foldl_max (a : Nat) (l : List Nat) : a ≤ l.foldl max a ∧ ∀ x ∈ l, x ≤ l.foldl max a := by
  induction l generalizing a with
  | nil => exact ⟨le_rfl, fun x hx => absurd hx List.not_mem_nil⟩
  | cons y l ih =>
    obtain ⟨hinit, hmem⟩ := ih (max a y)
    refine ⟨le_trans (le_max_left a y) hinit, fun x hx => ?_⟩
    rcases List.mem_cons.1 hx with rfl | hx
    · exact le_trans (le_max_right a x) hinit
    · exact hmem x hx

/-- R58: a dark column's residual is not negative. -/
theorem residual_toNat {x : Nat} (hx : x ∈ darkColumns w q pix bg) :
    ((residualAt pix bg x).toNat : Int) = residualAt pix bg x :=
  Int.toNat_of_nonneg (le_trans (Int.natCast_nonneg _) ((mem_darkColumns w q pix bg).1 hx).2)

/-- R67: the dark summary of the model is one of the statement's. -/
theorem darkSummary_summaryOf (hne : darkColumns w q pix bg ≠ []) :
    SummaryOf w q pix bg (darkSummary ((darkColumns w q pix bg).map (columnAt pix bg))) := by
  have hsorted := darkColumns_pairwise w q pix bg
  obtain ⟨first, rest, hds⟩ := List.exists_cons_of_ne_nil hne
  have hlo : (darkSummary ((darkColumns w q pix bg).map (columnAt pix bg))).lo = first := by rw [hds]; rfl
  have hhi : (darkSummary ((darkColumns w q pix bg).map (columnAt pix bg))).hi =
      (darkColumns w q pix bg).getLast hne := by
    rw [darkSummary, List.getLast?_map, List.getLast?_eq_some_getLast hne]
    rfl
  have hpeak : (darkSummary ((darkColumns w q pix bg).map (columnAt pix bg))).peak =
      ((darkColumns w q pix bg).map fun x => (residualAt pix bg x).toNat).foldl max 0 := by
    rw [darkSummary, List.map_map]
    rfl
  obtain ⟨-, hle⟩ := le_foldl_max 0 ((darkColumns w q pix bg).map fun x => (residualAt pix bg x).toNat)
  have hfirst : first ∈ darkColumns w q pix bg := by rw [hds]; exact List.mem_cons_self ..
  refine ⟨by rw [hlo]; exact hfirst, by rw [hhi]; exact List.getLast_mem hne, fun x hx => ⟨?_, ?_, ?_⟩, ?_, ?_⟩
  · rw [hlo]
    rw [hds] at hsorted hx
    rcases List.mem_cons.1 hx with rfl | hx
    · exact le_rfl
    · exact le_of_lt (List.rel_of_pairwise_cons hsorted hx)
  · rw [hhi]
    exact (hsorted.imp le_of_lt).rel_getLast hx
  · rw [hpeak, ← residual_toNat w q pix bg hx]
    exact Int.ofNat_le.2 (hle _ (List.mem_map_of_mem hx))
  · rw [hpeak]
    rcases foldl_max_mem 0 ((darkColumns w q pix bg).map fun x => (residualAt pix bg x).toNat) with h | h
    · refine ⟨first, hfirst, ?_⟩
      have h0 := hle _ (List.mem_map_of_mem hfirst)
      rw [h, ← residual_toNat w q pix bg hfirst]
      rw [h] at h0
      exact congrArg Int.ofNat (Nat.le_zero.1 h0)
    · obtain ⟨x, hx, heq⟩ := List.mem_map.1 h
      exact ⟨x, hx, by rw [← heq, residual_toNat w q pix bg hx]⟩
  · exact List.length_map ..

/-! ## The three analyses (R49, R50, R52 to R68) -/

/-- R53: an obscured line. -/
theorem analyse_obscured {role : Role} (hrole : role ≠ .seed) (h : ObscuredLine w q pix) :
    analyse role w q pix bg = plainResult .obscured bg := by
  have hobs := (isObscured_iff w q pix bg).2 h
  cases role with
  | seed => exact absurd rfl hrole
  | warmup => exact if_pos hobs
  | ordinary => exact if_pos hobs

theorem analyse_warmup (h : ¬ObscuredLine w q pix) :
    analyse .warmup w q pix bg = plainResult .warmup (updatedBackground w q pix bg (warmupPair q)) :=
  if_neg (mt (isObscured_iff w q pix bg).1 h)

/-- R64, R66: whether the line is a band line. -/
def bandLine : Bool := isBandLine q (darkColumns w q pix bg).length (openColumns w q pix).length

theorem bandLine_iff : bandLine w q pix bg = true ↔
    q.bandOff = false ∧ darkColumns w q pix bg ≠ [] ∧
      q.bf * (openColumns w q pix).length ≤ (darkColumns w q pix bg).length * 256 := by
  simp only [bandLine, isBandLine, Bool.and_eq_true, Bool.not_eq_true', decide_eq_true_eq, and_assoc, ne_eq,
    List.length_eq_zero_iff]

/-- R54 to R68: what an ordinary line not obscured reports. -/
def ordinaryResult : LineResult :=
  let fed := fedRuns q (bandLine w q pix bg) (thresholdOf w q pix bg) ((wideRunsOf w q pix bg).take 64)
  { verdict := .analysed
    background := updatedBackground w q pix bg (ordinaryPair q (thresholdOf w q pix bg))
    flags :=
      { band := bandLine w q pix bg, deep := bandLine w q pix bg && !fed.isEmpty
        clutter := decide (64 < (wideRunsOf w q pix bg).length)
        stuck := (interior w q pix bg).any (isForced q (thresholdOf w q pix bg))
        clampT := clampedThreshold q (noise q (interior w q pix bg)) }
    fed := fed
    dark := (darkColumns w q pix bg).length
    threshold := thresholdOf w q pix bg
    band :=
      if bandLine w q pix bg then some (darkSummary ((darkColumns w q pix bg).map (columnAt pix bg))) else none }

theorem analyseOrdinary_eq (h : ¬ObscuredLine w q pix) : analyseOrdinary w q pix bg = ordinaryResult w q pix bg := by
  rw [analyseOrdinary, if_neg (mt (isObscured_iff w q pix bg).1 h), analyseStages, threshold_eq, dark_eq, unsaturated_eq,
    wideRuns_eq, List.length_map, List.length_map]
  rfl

/-- The statement's account of the flags, the runs and the summary. -/
theorem ordinaryResult_figures {r : LineResult} (hr : r = ordinaryResult w q pix bg) :
    (r.flags.clampT = true ↔ 65535 < rawThresholdOf w q pix bg ∨ 65280 < thresholdOf w q pix bg) ∧
      (r.flags.stuck = true ↔ ∃ x ∈ darkColumns w q pix bg, q.l ≤ (readStore (0, 0) bg x).2 + 1) ∧
      (r.flags.band = true ↔
        q.bandOff = false ∧ darkColumns w q pix bg ≠ [] ∧
          q.bf * (openColumns w q pix).length ≤ (darkColumns w q pix bg).length * 256) ∧
      (r.flags.deep = true ↔ r.flags.band = true ∧ r.fed ≠ []) ∧
      (r.flags.clutter = true ↔ 64 < (wideRunsOf w q pix bg).length) ∧
      (r.flags.band = false → r.fed = (wideRunsOf w q pix bg).take 64 ∧ r.band = none) ∧
      (r.flags.band = true →
        r.fed =
            (((wideRunsOf w q pix bg).take 64).filter fun u =>
              decide (thresholdOf w q pix bg + q.deepM ≤ u.peak)).map (fun u => { u with inMark := true }) ∧
          ∃ d, r.band = some d ∧ SummaryOf w q pix bg d) := by
  subst hr
  refine ⟨clampedThreshold_iff w q pix bg, forced_iff w q pix bg, bandLine_iff w q pix bg, ?_, decide_eq_true_iff, fun hb => ?_,
    fun hb => ?_⟩
  · change (bandLine w q pix bg && !(ordinaryResult w q pix bg).fed.isEmpty) = true ↔
      bandLine w q pix bg = true ∧ (ordinaryResult w q pix bg).fed ≠ []
    rw [Bool.and_eq_true, Bool.not_eq_true', List.isEmpty_eq_false_iff]
  · have hb : bandLine w q pix bg = false := hb
    refine ⟨?_, if_neg (by rw [hb]; exact Bool.false_ne_true)⟩
    change fedRuns q (bandLine w q pix bg) _ _ = _
    rw [hb]
    rfl
  · have hb : bandLine w q pix bg = true := hb
    refine ⟨?_, _, if_pos hb, darkSummary_summaryOf w q pix bg ((bandLine_iff w q pix bg).1 hb).2.1⟩
    change fedRuns q (bandLine w q pix bg) _ _ = _
    rw [hb]
    rfl

end Figures

end Sys2Proof.Machine
end

section
/-! Two states that differ in one channel's background, queue and requests, and in what the classifier never reads: what the track
table, the band tracker and the classifier make of the one they make of the other. -/

namespace Sys2Proof.Machine

/-! ## What may differ -/

/-- What may differ between two states set side by side: of one channel the background, the queue of entries, the pending command and
the abandonment put off, the setup unit's command, and of the outgoing writes and the status unit what a relation allows that
conditions and counts keep. -/
structure Apart where
  background : Store (Nat × Nat) → Store (Nat × Nat)
  queue : List (Fin 2) → List (Fin 2)
  pending : Option ChanCommand → Option ChanCommand
  due : Bool → Bool
  command : CommandState → CommandState
  outside : Path → Status → Path → Status → Prop
  latches : ∀ o i s t, t.setup.strap = s.setup.strap → outside s.path s.status t.path t.status →
    outside (latchBit o i s).path (latchBit o i s).status (latchBit o i t).path (latchBit o i t).status
  counts : ∀ (d : Chan) (f : ChanCounters → ChanCounters) p st q su, outside p st q su →
    outside p { st with counters := st.counters.set d (f (st.counters.get d)) } q
      { su with counters := su.counters.set d (f (su.counters.get d)) }
  partCounts : ∀ (f : PartCounters → PartCounters) p st q su, outside p st q su →
    outside p { st with partCounters := f st.partCounters } q { su with partCounters := f su.partCounters }
  lists : ∀ (f : List SysTxn → List SysTxn) p st q su, outside p st q su →
    outside { p with list := f p.list } st { q with list := f q.list } su

/-- The channel of the second state. -/
def Apart.chan (m : Apart) (ch : Channel) : Channel :=
  { ch with
    background := m.background ch.background
    capture := { ch.capture with queue := m.queue ch.capture.queue }
    record := { ch.record with pendingCmd := m.pending ch.record.pendingCmd, abandonDue := m.due ch.record.abandonDue } }

/-- `t` is `s` but for what may differ, in channel `c`. -/
structure Beside (m : Apart) (c : Chan) (s t : State) : Prop where
  chans : t.chans = s.chans.set c (m.chan (s.chan c))
  outside : m.outside s.path s.status t.path t.status
  rest : t = { s with
    chans := t.chans, setup := { s.setup with command := m.command s.setup.command }, path := t.path, status := t.status }

namespace Beside

variable {m : Apart} {c : Chan} {s t : State}

/-! ## What does not differ -/

theorem chan (h : Beside m c s t) : t.chan c = m.chan (s.chan c) := by
  rw [State.chan, h.chans, Bank16.get_set_same]

theorem others (h : Beside m c s t) (d : Chan) (hd : d ≠ c) : t.chan d = s.chan d := by
  rw [State.chan, h.chans, Bank16.get_set_other _ _ hd]
  rfl

theorem ring (h : Beside m c s t) : t.ring = s.ring := (congrArg State.ring h.rest :)

theorem strands (h : Beside m c s t) : t.strands = s.strands := (congrArg State.strands h.rest :)

theorem ms (h : Beside m c s t) : t.ms = s.ms := (congrArg State.ms h.rest :)

theorem engine (h : Beside m c s t) : t.engine = s.engine := (congrArg State.engine h.rest :)

theorem setup (h : Beside m c s t) : t.setup = { s.setup with command := m.command s.setup.command } :=
  (congrArg State.setup h.rest :)

theorem heldW (h : Beside m c s t) : heldW t = heldW s := by rw [Machine.heldW, Machine.heldW, h.setup]

theorem tracks (h : Beside m c s t) : (t.chan c).tracks = (s.chan c).tracks := by rw [h.chan]; rfl

theorem band (h : Beside m c s t) : (t.chan c).band = (s.chan c).band := by rw [h.chan]; rfl

theorem params (h : Beside m c s t) : (t.chan c).params = (s.chan c).params := by rw [h.chan]; rfl

theorem held (h : Beside m c s t) : (t.chan c).held = (s.chan c).held := by rw [h.chan]; rfl

theorem waiting (h : Beside m c s t) : (t.chan c).waiting = (s.chan c).waiting := by rw [h.chan]; rfl

theorem mode (h : Beside m c s t) : (t.chan c).record.mode = (s.chan c).record.mode := by rw [h.chan]; rfl

theorem serial (h : Beside m c s t) : (t.chan c).record.serial = (s.chan c).record.serial := by rw [h.chan]; rfl

theorem tallies (h : Beside m c s t) : (t.chan c).record.tallies = (s.chan c).record.tallies := by rw [h.chan]; rfl

theorem billet (h : Beside m c s t) : (t.chan c).record.billet = (s.chan c).record.billet := by rw [h.chan]; rfl

theorem state (h : Beside m c s t) : (t.chan c).record.state = (s.chan c).record.state := by rw [h.chan]; rfl

theorem billetOpen (h : Beside m c s t) : billetOpen t c = billetOpen s c := by
  unfold Machine.billetOpen
  rw [h.state]

/-! ## The updates -/

theorem modChan (h : Beside m c s t) (f : Channel → Channel) (hf : f (m.chan (s.chan c)) = m.chan (f (s.chan c))) :
    Beside m c (modChan c f s) (modChan c f t) where
  chans := by
    change t.chans.set c (f (t.chan c)) = (s.chans.set c (f (s.chan c))).set c (m.chan ((Machine.modChan c f s).chan c))
    rw [chan_modChan_same, h.chan, hf, h.chans, Bank16.set_set, Bank16.set_set]
  outside := h.outside
  rest := by
    conv_lhs => unfold Machine.modChan setChan; rw [h.rest]
    rfl

theorem modBand (h : Beside m c s t) (f : Band → Band) : Beside m c (modBand c f s) (modBand c f t) :=
  h.modChan (fun ch => { ch with band := f ch.band }) rfl

theorem modTallies (h : Beside m c s t) (f : Tallies → Tallies) : Beside m c (modTallies c f s) (modTallies c f t) :=
  h.modChan (fun ch => { ch with record := { ch.record with tallies := f ch.record.tallies } }) rfl

theorem modRing (h : Beside m c s t) (f : Ring → Ring) : Beside m c (modRing f s) (modRing f t) where
  chans := h.chans
  outside := h.outside
  rest := by
    conv_lhs => unfold Machine.modRing; rw [h.rest]
    rfl

theorem modStrand (h : Beside m c s t) (k : Strand) (f : StrandState → StrandState) :
    Beside m c (modStrand k f s) (modStrand k f t) where
  chans := h.chans
  outside := h.outside
  rest := by
    conv_lhs => unfold Machine.modStrand; rw [h.rest]
    rfl

theorem modCounters (h : Beside m c s t) (d : Chan) (f : ChanCounters → ChanCounters) :
    Beside m c (modCounters d f s) (modCounters d f t) where
  chans := h.chans
  outside := m.counts d f _ _ _ _ h.outside
  rest := by
    conv_lhs => unfold Machine.modCounters modStatus; rw [h.rest]
    rfl

theorem modPartCounters (h : Beside m c s t) (f : PartCounters → PartCounters) :
    Beside m c (modPartCounters f s) (modPartCounters f t) where
  chans := h.chans
  outside := m.partCounts f _ _ _ _ h.outside
  rest := by
    conv_lhs => unfold Machine.modPartCounters modStatus; rw [h.rest]
    rfl

theorem releaseList (h : Beside m c s t) (id : Nat) (f : Body → Body) :
    Beside m c (modPath (releaseTxn id f) s) (modPath (releaseTxn id f) t) where
  chans := h.chans
  outside := m.lists _ _ _ _ _ h.outside
  rest := by
    conv_lhs => unfold Machine.modPath; rw [h.rest]
    rfl

/-- A condition latched touches the outgoing writes and the status unit alone. -/
theorem latchBit_only (o : Owner) (i : Nat) (s : State) :
    latchBit o i s = { s with path := (latchBit o i s).path, status := (latchBit o i s).status } := by
  unfold latchBit setLatched
  split
  · rfl
  · rw [refreshAttention_eq]
    unfold summaryTakes offerWord modPath modStatus
    split <;> rfl

theorem latchBit (h : Beside m c s t) (o : Owner) (i : Nat) : Beside m c (latchBit o i s) (latchBit o i t) where
  chans := by
    rw [latchBit_only o i s, latchBit_only o i t]
    exact h.chans
  outside := m.latches o i s t (by rw [h.setup]) h.outside
  rest := by
    conv_lhs => rw [latchBit_only o i t, h.rest]
    conv_rhs => rw [latchBit_only o i s, latchBit_only o i t]
    rw [h.rest]

theorem latchChan (h : Beside m c s t) (d : Chan) (k : ChanCond) : Beside m c (latchChan d k s) (latchChan d k t) :=
  h.latchBit _ _

theorem latchPart (h : Beside m c s t) (k : PartCond) : Beside m c (latchPart k s) (latchPart k t) := h.latchBit _ _

theorem produce (h : Beside m c s t) (r : Record) : Beside m c (produce r s) (produce r t) := by
  unfold Machine.produce
  rw [h.ring, h.ms]
  by_cases hs : s.ring.queue.length < 64
  · rw [if_pos hs, if_pos hs]; exact h.modRing _
  · rw [if_neg hs, if_neg hs]
    exact ((h.modPartCounters _).latchPart _).modRing _

theorem requestMark (h : Beside m c s t) (d : Chan) (n : Word32) : Beside m c (requestMark d n s) (requestMark d n t) := by
  unfold Machine.requestMark
  rw [h.strands, h.ms]
  cases markAnswer (s.strands.get (strandOf d)) n with
  | late => exact (h.modPartCounters _).latchPart _
  | dropped => exact (h.modPartCounters _).latchPart _
  | scheduled => exact h.modStrand _ _
  | merged => exact h
  | none => exact h
  | suppressed => exact h

/-! ## The classifier (R118 to R121) -/

theorem takeSerial (h : Beside m c s t) : Beside m c (takeSerial c s) (takeSerial c t) :=
  h.modChan (fun ch => { ch with record := { ch.record with serial := ch.record.serial + 1 } }) rfl

theorem requestFor (h : Beside m c s t) (set : ParamSet) (e : Profile) (k : Closure) :
    Beside m c (requestFor c set e k s) (requestFor c set e k t) := by
  unfold Machine.requestFor
  rw [h.mode]
  cases e.mark with
  | false => exact h
  | true =>
    cases (s.chan c).record.mode with
    | live => exact h.requestMark c _
    | replay => exact h

theorem defect (h : Beside m c s t) (set : ParamSet) (e : Profile) (k : Closure) :
    defectOf c set e k (closureMark c set e k t) t = defectOf c set e k (closureMark c set e k s) s := by
  unfold defectOf closureMark
  rw [h.mode, h.strands, h.heldW, h.billet, h.serial, h.ms]

theorem emitDefect (h : Beside m c s t) (set : ParamSet) (e : Profile) (k : Closure) :
    Beside m c (emitDefect c set e k s) (emitDefect c set e k t) := by
  unfold Machine.emitDefect
  simp only
  rw [h.takeSerial.defect]
  exact (h.takeSerial.requestFor set e k).produce _

theorem belowClass (h : Beside m c s t) : Beside m c (belowClass c s) (belowClass c t) :=
  (h.modCounters c _).modTallies _

theorem classify (h : Beside m c s t) (set : ParamSet) (k : Closure) :
    Beside m c (classify c set k s) (classify c set k t) := by
  unfold Machine.classify
  rw [h.heldW]
  cases matchingEntry (Machine.heldW s) set k with
  | some e => exact h.emitDefect set e k
  | none => exact h.belowClass

theorem classifyTracks (set : ParamSet) (cause : Cause) (ts : List Track) {s t : State} (h : Beside m c s t) :
    Beside m c (classifyTracks c set cause ts s) (classifyTracks c set cause ts t) := by
  unfold Machine.classifyTracks
  induction ts generalizing s t with
  | nil => exact h
  | cons x xs ih => exact ih (h.classify set _)

/-! ## The track table (R90 to R106) -/

theorem setTracks (h : Beside m c s t) (ts : List Track) : Beside m c (setTracks c ts s) (setTracks c ts t) :=
  h.modChan (fun ch => { ch with tracks := ts }) rfl

theorem closeTracks (h : Beside m c s t) (cause : Cause) : Beside m c (closeTracks c cause s) (closeTracks c cause t) := by
  unfold Machine.closeTracks
  rw [h.params, h.tracks]
  exact classifyTracks _ _ _ (h.setTracks _)

theorem countLostRuns (h : Beside m c s t) (n : Nat) : Beside m c (countLostRuns c n s) (countLostRuns c n t) := by
  unfold Machine.countLostRuns
  split
  · exact h
  · exact (h.modCounters c _).latchChan c _

theorem takeLine (h : Beside m c s t) (set : ParamSet) (l : LineRuns) :
    Beside m c (takeLine c set l s) (takeLine c set l t) := by
  unfold Machine.takeLine
  simp only
  rw [h.tracks]
  exact (classifyTracks _ _ _ (h.setTracks _)).countLostRuns _

/-! ## The band tracker (R71 to R85) -/

theorem recomputePitch (h : Beside m c s t) : Beside m c (recomputePitch c s) (recomputePitch c t) :=
  h.modChan
    (fun ch => { ch with band := { ch.band with effPitch := effectivePitch ch.params.chan ch.band.pitchRing } }) rfl

theorem handCandidate (h : Beside m c s t) (set : ParamSet) (k : Closure) :
    Beside m c (handCandidate c set k s) (handCandidate c set k t) := (h.modTallies _).classify set k

theorem testEpisode (h : Beside m c s t) (set : ParamSet) (e : Episode) (cause : Cause) :
    Beside m c (testEpisode c set e cause s) (testEpisode c set e cause t) := by
  unfold Machine.testEpisode
  simp only [h.band]
  cases (s.chan c).band.prevCentre with
  | none => exact (h.modBand _).modTallies _
  | some prev =>
    simp only
    split
    · exact ((h.modBand _).recomputePitch).modTallies _
    · exact h.handCandidate set _

theorem closeEpisode (h : Beside m c s t) (set : ParamSet) (cause : Cause) :
    Beside m c (closeEpisode c set cause s) (closeEpisode c set cause t) := by
  unfold Machine.closeEpisode
  simp only [h.band]
  cases (s.chan c).band.episode.state with
  | absent => exact h
  | isOpen => exact (h.modBand _).testEpisode set _ _
  | ending => exact (h.modBand _).testEpisode set _ _

theorem keepOrCloseLong (h : Beside m c s t) (set : ParamSet) (e : Episode) :
    Beside m c (keepOrCloseLong c set e s) (keepOrCloseLong c set e t) := by
  unfold Machine.keepOrCloseLong
  split
  · exact (h.modBand _).handCandidate set _
  · exact h.modBand _

theorem takeBandOutcome (h : Beside m c s t) (set : ParamSet) (count : Word32) (pos : Nat) (d : Option DarkSummary) :
    Beside m c (takeBandOutcome c set count pos d s) (takeBandOutcome c set count pos d t) := by
  unfold Machine.takeBandOutcome
  simp only [h.band]
  cases d with
  | some d =>
    cases (s.chan c).band.episode.state with
    | absent => exact h.modBand _
    | isOpen => exact h.keepOrCloseLong set _
    | ending => exact h.keepOrCloseLong set _
  | none =>
    cases (s.chan c).band.episode.state with
    | absent => exact h
    | isOpen => exact h.modBand _
    | ending => exact h.closeEpisode set _

/-! ## The unseen run and the BLIND test (R16, R17) -/

theorem goBlind (h : Beside m c s t) : Beside m c (goBlind c s) (goBlind c t) := by
  have hu := h.closeTracks .blind
  unfold Machine.goBlind blindEpisode
  rw [hu.params]
  exact ((hu.closeEpisode _ _).modBand _).modChan
    (fun ch => { ch with capture := { ch.capture with unseenRun := 0 } }) rfl

theorem blindTest (h : Beside m c s t) : Beside m c (blindTest c s) (blindTest c t) := by
  have hrun : (t.chan c).capture.unseenRun = (s.chan c).capture.unseenRun := by rw [h.chan]; rfl
  unfold Machine.blindTest
  rw [h.billetOpen, h.params, hrun]
  split
  · exact h.goBlind
  · exact h

theorem addUnseen (h : Beside m c s t) (n : Nat) : Beside m c (addUnseen c n s) (addUnseen c n t) := by
  have hu := (h.modChan (fun ch => { ch with capture := { ch.capture with unseenRun := sat16 (ch.capture.unseenRun + n) } })
    rfl).modCounters c fun k => { k with unseen := sat16 (k.unseen + n) }
  unfold Machine.addUnseen
  simp only
  rw [h.billetOpen]
  split
  · exact hu.modTallies _
  · exact hu

theorem clearRun (h : Beside m c s t) (k : Seen) : Beside m c (clearRun c k s) (clearRun c k t) := by
  cases k with
  | examined => exact h.modChan (fun ch => { ch with capture := { ch.capture with unseenRun := 0 } }) rfl
  | unseen => exact h
  | passed => exact h

end Beside

end Sys2Proof.Machine
end

section
/-! The steps of a completion (R29, R48): the outcome applied, the runs taken, the record updated, the verdict released, the entry
retired. -/

namespace Sys2Proof.Machine

open Sys2Proof.Safety

/-! ## The steps by name -/

/-- R47: what the analysis `a` of the line of entry `e` reports. -/
def resultOf (a : Analysis) (e : Fin 2) (s : State) : LineResult :=
  analyse a.role (heldW s) a.params.chan (pixel (entryOf (s.chan a.chan).capture e)) (s.chan a.chan).background

/-- R48, steps 1 to 3: the background, the track table and the band tracker, and the channel record. -/
def recorded (a : Analysis) (e : Fin 2) (s : State) : State :=
  applyRecord a (lineCount (entryOf (s.chan a.chan).capture e)) (resultOf a e s).verdict
    (applyRuns a.chan a.params (entryOf (s.chan a.chan).capture e) (resultOf a e s)
      (applyOutcome a.chan (resultOf a e s) s))

/-- R48, steps 1 to 4: the verdict released. -/
def examined (a : Analysis) (e : Fin 2) (s : State) : State := releaseVerdict a.chan e (resultOf a e s) (recorded a e s)

/-- R48, steps 1 to 5: the entry retired. -/
def retired (a : Analysis) (e : Fin 2) (s : State) : State :=
  retire a.chan e (verdictSeen (resultOf a e s).verdict) (examined a e s)

theorem completeAnalysis_eq (a : Analysis) (e : Fin 2) (s : State) :
    completeAnalysis a e s = afterRetirement a.chan (retired a e s) := rfl

/-! ## What a completion keeps -/

/-- From `s` to `t` a line of channel `c` is examined: its line capture apart, of the channel only the background, the held trailers,
the band tracker, the tracks and the figures of the record change. -/
structure Examines (c : Chan) (s t : State) : Prop where
  only : OnlyChan c s t
  unrouted : t.unrouted = s.unrouted
  chan : t.chan c =
    { s.chan c with
      capture := (t.chan c).capture
      held := (t.chan c).held
      background := (t.chan c).background
      band := (t.chan c).band
      tracks := (t.chan c).tracks
      record := { (s.chan c).record with
        lastAnalysed := (t.chan c).record.lastAnalysed
        warmupLeft := (t.chan c).record.warmupLeft
        serial := (t.chan c).record.serial
        tallies := (t.chan c).record.tallies } }
  ring : t.ring = { s.ring with queue := t.ring.queue, loss := t.ring.loss }

namespace Examines

variable {c : Chan} {s t u : State}

theorem refl (c : Chan) (s : State) : Examines c s s := ⟨.refl c s, rfl, rfl, rfl⟩

theorem trans (h : Examines c s t) (k : Examines c t u) : Examines c s u where
  only := h.only.trans k.only
  unrouted := k.unrouted.trans h.unrouted
  chan := by
    have hk := k.chan
    rw [h.chan] at hk
    exact hk
  ring := by
    have hk := k.ring
    rw [h.ring] at hk
    exact hk

/-- What of the channel's record stands. -/
theorem record (h : Examines c s t) :
    (t.chan c).record.state = (s.chan c).record.state ∧ (t.chan c).record.mode = (s.chan c).record.mode ∧
      (t.chan c).record.billet = (s.chan c).record.billet ∧ (t.chan c).record.headCount = (s.chan c).record.headCount ∧
      (t.chan c).record.pendingCmd = (s.chan c).record.pendingCmd ∧
      (t.chan c).record.abandonDue = (s.chan c).record.abandonDue := by
  rw [h.chan]
  exact ⟨rfl, rfl, rfl, rfl, rfl, rfl⟩

theorem billetOpen (h : Examines c s t) : billetOpen t c = billetOpen s c := billetOpen_congr h.record.1

theorem params (h : Examines c s t) : (t.chan c).params = (s.chan c).params ∧ (t.chan c).waiting = (s.chan c).waiting := by
  rw [h.chan]
  exact ⟨rfl, rfl⟩

end Examines

theorem Closes.examines {c : Chan} {s t : State} (h : Closes c s t) : Examines c s t :=
  ⟨h.only, h.unrouted, by
    have hchan := h.chan
    rw [hchan], h.ring⟩

theorem OffersOnly.examines {s t : State} (c : Chan) (h : OffersOnly s t) : Examines c s t :=
  ⟨h.onlyChan c, h.unrouted, by rw [chan_of_chans h.chans c], by rw [h.ring]⟩

theorem modCounters_examines (c : Chan) (f : ChanCounters → ChanCounters) (s : State) : Examines c s (modCounters c f s) :=
  ⟨modCounters_onlyChan c s c f, rfl, rfl, rfl⟩

theorem modCapture_examines (c : Chan) (f : Capture → Capture) (s : State) : Examines c s (modCapture c f s) :=
  ⟨modCapture_onlyChan c s f, rfl, by rw [modCapture_chan_same], rfl⟩

theorem modBand_examines (c : Chan) (f : Band → Band) (s : State) : Examines c s (modBand c f s) :=
  ⟨modBand_onlyChan c s f, rfl, by rw [modBand_chan_same], rfl⟩

/-! ## The outcome (R48 step 1, R69) -/

/-- R53, R63, R60: the conditions that a completion latches. -/
def outcomeBits (r : LineResult) : BitVec 16 :=
  ((if r.verdict = .obscured then 8 else 0) ||| (if r.flags.stuck = true then 128 else 0)) |||
    (if r.flags.clutter = true then 64 else 0)

/-- R48: the state before the conditions of the outcome are latched. -/
def outcomeState (c : Chan) (r : LineResult) (s : State) : State :=
  if r.verdict = .obscured then
    modCounters c (fun k => { k with obscured := min (k.obscured + 1) 65535 })
      (setChan c { s.chan c with background := r.background } s)
  else setChan c { s.chan c with background := r.background } s

theorem Latches.refl (c : Chan) (s : State) : Latches c 0 s s := ⟨.refl s, fun _ _ => rfl, (or_noBits _).symm, rfl⟩

theorem Latches.trans {c : Chan} {b1 b2 : BitVec 16} {s t u : State} (h : Latches c b1 s t) (k : Latches c b2 t u) :
    Latches c (b1 ||| b2) s u :=
  ⟨h.offers.trans k.offers, fun d hd => (k.others d hd).trans (h.others d hd), by rw [k.latched, h.latched, BitVec.or_assoc],
    k.part.trans h.part⟩

theorem latchIf_latches (c : Chan) (k : ChanCond) (p : Prop) [Decidable p] (s : State) :
    Latches c (if p then condSet (chanCondBit k) else 0) s (if p then latchChan c k s else s) := by
  split
  · exact latchChan_latches c k s
  · exact .refl c s

theorem applyOutcome_latches (c : Chan) (r : LineResult) (s : State) :
    Latches c (outcomeBits r) (outcomeState c r s) (applyOutcome c r s) := by
  have hobscured : (if r.verdict = .obscured then
      latchChan c .obscured
        (modCounters c (fun k => { k with obscured := sat16 (k.obscured + 1) })
          (modChan c (fun ch => { ch with background := r.background }) s))
      else modChan c (fun ch => { ch with background := r.background }) s) =
      if r.verdict = .obscured then latchChan c .obscured (outcomeState c r s) else outcomeState c r s := by
    unfold outcomeState
    split
    · rfl
    · rfl
  unfold applyOutcome
  simp only
  rw [hobscured]
  exact ((latchIf_latches c .obscured _ _).trans (latchIf_latches c .stuckColumn _ _)).trans (latchIf_latches c .runClutter _ _)

theorem outcomeState_chan (c : Chan) (r : LineResult) (s : State) :
    (outcomeState c r s).chan c = { s.chan c with background := r.background } := by
  unfold outcomeState
  split
  · exact chan_setChan_same ..
  · exact chan_setChan_same ..

theorem outcomeState_examines (c : Chan) (r : LineResult) (s : State) : Examines c s (outcomeState c r s) := by
  have hset : Examines c s (setChan c { s.chan c with background := r.background } s) :=
    ⟨modChan_onlyChan c s fun _ => _, rfl, by rw [chan_setChan_same], rfl⟩
  unfold outcomeState
  split
  · exact hset.trans (modCounters_examines c _ _)
  · exact hset

theorem applyOutcome_chan (c : Chan) (r : LineResult) (s : State) :
    (applyOutcome c r s).chan c = { s.chan c with background := r.background } :=
  (chan_of_chans (applyOutcome_latches c r s).offers.chans c).trans (outcomeState_chan c r s)

theorem applyOutcome_examines (c : Chan) (r : LineResult) (s : State) : Examines c s (applyOutcome c r s) :=
  (outcomeState_examines c r s).trans ((applyOutcome_latches c r s).offers.examines c)

/-! ## The runs (R48 step 2) -/

theorem withEpisode_closes (c : Chan) (e : Episode) (s : State) : Closes c s (withEpisode c e s) :=
  modChan_closes (f := fun ch => { ch with band := { ch.band with episode := e } }) c s rfl rfl rfl

/-- R71 to R83: what the band tracker makes of a line keeps the tracks. -/
theorem takeBandOutcome_closes (c : Chan) (set : ParamSet) (count : Word32) (pos : Nat) (d : Option DarkSummary) (s : State) :
    Closes c s (takeBandOutcome c set count pos d s) ∧
      ((takeBandOutcome c set count pos d s).chan c).tracks = (s.chan c).tracks := by
  have hepisode : ∀ e, Closes c s (withEpisode c e s) ∧ ((withEpisode c e s).chan c).tracks = (s.chan c).tracks := fun e =>
    ⟨withEpisode_closes c e s, by rw [withEpisode, chan_setChan_same]⟩
  have hcandidate : ∀ e cause long, Closes c s (afterCandidate c set e cause long s) ∧
      ((afterCandidate c set e cause long s).chan c).tracks = (s.chan c).tracks := fun e cause long => by
    obtain ⟨r, hr⟩ := afterCandidate_chan c set e cause long s
    exact ⟨afterCandidate_closes c s set e cause long, by rw [hr]⟩
  rw [takeBandOutcome_eq]
  unfold afterBandOutcome
  cases d with
  | some d =>
    simp only
    split
    · exact hepisode _
    · split
      · exact hcandidate _ _ _
      · exact hepisode _
  | none =>
    simp only
    split
    · exact ⟨.refl c s, rfl⟩
    · exact hepisode _
    · exact ⟨afterTest_closes c s set _ _, (afterTest_absent c set _ _ s).2⟩

/-- R90 to R102: what the track table makes of a line, but for the runs it loses. -/
theorem takeLine_closes (c : Chan) (set : ParamSet) (l : LineRuns) (s : State) :
    ∃ n v, Closes c s v ∧ takeLine c set l s = countLostRuns c n v := by
  refine ⟨_, _, ?_, rfl⟩
  exact (modChan_closes (f := fun ch => { ch with tracks := openRuns l _ _ }) c s rfl rfl rfl).trans
    (classifyTracks_closes c _ set .gap _)

theorem countLostRuns_examines (c : Chan) (n : Nat) (s : State) : Examines c s (countLostRuns c n s) := by
  unfold countLostRuns
  split
  · exact .refl c s
  · exact (modCounters_examines c _ s).trans ((latchChan_offersOnly c _ _).examines c)

/-- R69: the conditions of channel `c` after the runs: as before, or with TRACK_FULL. -/
structure TakesRuns (c : Chan) (s t : State) : Prop where
  examines : Examines c s t
  capture : (t.chan c).capture = (s.chan c).capture
  held : (t.chan c).held = (s.chan c).held
  background : (t.chan c).background = (s.chan c).background
  list : t.path.list = s.path.list
  record : (t.chan c).record =
    { (s.chan c).record with
      serial := (t.chan c).record.serial
      tallies := { (t.chan c).record.tallies with
        analysed := (s.chan c).record.tallies.analysed, unseen := (s.chan c).record.tallies.unseen } }
  counters : t.status.counters.get c =
    { s.status.counters.get c with
      trackFull := (t.status.counters.get c).trackFull, discarded := (t.status.counters.get c).discarded }
  latched : ∃ bits, (t.status.words.get c).latched = (s.status.words.get c).latched ||| bits

theorem Closes.takesRuns {c : Chan} {s t : State} (h : Closes c s t) : TakesRuns c s t where
  examines := h.examines
  capture := by rw [h.chan]
  held := by rw [h.chan]
  background := by rw [h.chan]
  list := h.list
  record := by
    have hrecord : (t.chan c).record =
        { (s.chan c).record with serial := (t.chan c).record.serial, tallies := (t.chan c).record.tallies } := by
      conv_lhs => rw [h.chan]
    rw [← h.analysed, ← h.unseen]
    exact hrecord
  counters := by
    have hcounters : t.status.counters.get c =
        { s.status.counters.get c with discarded := (t.status.counters.get c).discarded } := by
      conv_lhs => rw [h.counters, Bank16.get_set_same]
    have hfull : (t.status.counters.get c).trackFull = (s.status.counters.get c).trackFull := by rw [hcounters]
    rw [hfull]
    exact hcounters
  latched := ⟨0, by rw [h.words, or_noBits]⟩

theorem TakesRuns.trans {c : Chan} {s t u : State} (h : TakesRuns c s t) (k : TakesRuns c t u) : TakesRuns c s u where
  examines := h.examines.trans k.examines
  capture := k.capture.trans h.capture
  held := k.held.trans h.held
  background := k.background.trans h.background
  list := k.list.trans h.list
  record := by
    have hk := k.record
    rw [h.record] at hk
    exact hk
  counters := by
    have hk := k.counters
    rw [h.counters] at hk
    exact hk
  latched := by
    obtain ⟨b1, h1⟩ := h.latched
    obtain ⟨b2, h2⟩ := k.latched
    exact ⟨b1 ||| b2, by rw [h2, h1, BitVec.or_assoc]⟩

theorem countLostRuns_takesRuns (c : Chan) (n : Nat) (s : State) : TakesRuns c s (countLostRuns c n s) := by
  obtain ⟨hchans, -, -, -, -, hnone, hsome⟩ := countLostRuns_rest c n s
  have hchan := chan_of_chans hchans c
  have hlist : (countLostRuns c n s).path.list = s.path.list := by
    unfold countLostRuns
    split
    · rfl
    · exact (latchChan_offersOnly c _ _).list
  refine ⟨countLostRuns_examines c n s, by rw [hchan], by rw [hchan], by rw [hchan], hlist, by rw [hchan], ?_, ?_⟩
  · rcases Nat.eq_zero_or_pos n with h0 | h1
    · rw [hnone h0]
    · rw [(hsome h1).1, Bank16.get_set_same]
  · rcases Nat.eq_zero_or_pos n with h0 | h1
    · exact ⟨0, by rw [hnone h0, or_noBits]⟩
    · exact ⟨32, (hsome h1).2⟩

/-- R48 step 2: the runs and the band outcome of an ordinary line taken from state `s`. -/
def runsTaken (c : Chan) (set : ParamSet) (l : LineRuns) (d : Option DarkSummary) (s : State) : State :=
  takeBandOutcome c set l.count l.pos d (takeLine c set l s)

theorem runsTaken_takesRuns (c : Chan) (set : ParamSet) (l : LineRuns) (d : Option DarkSummary) (s : State) :
    TakesRuns c s (runsTaken c set l d s) := by
  obtain ⟨n, v, hv, hline⟩ := takeLine_closes c set l s
  rw [runsTaken, hline]
  exact (hv.takesRuns.trans (countLostRuns_takesRuns c n v)).trans (takeBandOutcome_closes c set _ _ d _).1.takesRuns

end Sys2Proof.Machine
end

section
/-! The end of a completion (R16, R19, R29, R48): the record, the release of the verdict, the retirement, and what the next line at
the head leaves. -/

namespace Sys2Proof.Machine

open Sys2Proof.Safety

/-! ## The record (R29, R48 step 3) -/

theorem furthestCount_eq (last count : Word32) : furthestCount last count = lastAfter last count :=
  if_congr (decide_eq_true_iff) rfl rfl

/-- R29: the record of channel `c` updated. -/
theorem applyRecord_chan (a : Analysis) (count : Word32) (v : FinalVerdict) (s : State) :
    (applyRecord a count v s).chan a.chan =
      { s.chan a.chan with record := completedRecord v a.role count (s.chan a.chan).record } := by
  unfold applyRecord
  simp only
  split
  · exact modRecord_chan_same ..
  · exact modRecord_chan_same ..

theorem completedRecord_rest (v : FinalVerdict) (role : Role) (count : Word32) (r : ChanRecord) :
    completedRecord v role count r =
      { r with
        lastAnalysed := (completedRecord v role count r).lastAnalysed
        warmupLeft := (completedRecord v role count r).warmupLeft
        serial := (completedRecord v role count r).serial
        tallies := (completedRecord v role count r).tallies } := by
  cases v with
  | seed => rfl
  | warmup => rfl
  | obscured => rfl
  | analysed => rfl

theorem applyRecord_examines (a : Analysis) (count : Word32) (v : FinalVerdict) (s : State) :
    Examines a.chan s (applyRecord a count v s) := by
  have hrecord : Examines a.chan s (modRecord a.chan (completedRecord v a.role count) s) :=
    ⟨modRecord_onlyChan _ s _, rfl, by
      rw [modRecord_chan_same]
      have h := completedRecord_rest v a.role count (s.chan a.chan).record
      simp only
      exact congrArg (fun r => { s.chan a.chan with record := r }) h, rfl⟩
  unfold applyRecord
  simp only
  split
  · exact hrecord.trans (modCounters_examines _ _ _)
  · exact hrecord

/-- R29: but for an ANALYSED line, whose counter increases, the record alone is touched. -/
theorem applyRecord_eq {a : Analysis} {v : FinalVerdict} (count : Word32) (s : State) (h : v ≠ .analysed) :
    applyRecord a count v s =
      setChan a.chan { s.chan a.chan with record := completedRecord v a.role count (s.chan a.chan).record } s := by
  unfold applyRecord
  simp only
  rw [if_neg h]
  rfl

/-! ## The verdict released (R19, R48 step 4) -/

/-- R19: the held trailers of channel `c` without that of entry `e`. -/
def heldAfter (s : State) (c : Chan) (e : Fin 2) : List HeldTrailer :=
  match heldOf s c e with
  | some h => (s.chan c).held.filter fun k => decide (k ≠ h)
  | none => (s.chan c).held

/-- R19, R163: the memory path with the verdict word `v` in the trailer beat that channel `c` held for entry `e`. -/
def releasedPath (s : State) (c : Chan) (e : Fin 2) (v : Word64) : Path :=
  match heldOf s c e with
  | some h => releaseTxn h.txn (rewriteBody h.beat v) s.path
  | none => s.path

theorem releaseVerdict_eq (c : Chan) (e : Fin 2) (r : LineResult) (s : State) :
    releaseVerdict c e r s =
      setChan c { s.chan c with held := heldAfter s c e }
        { s with path := releasedPath s c e (resultWord r (s.chan c).tracks.length) } := by
  unfold releaseVerdict heldAfter releasedPath
  cases heldOf s c e with
  | some h => rfl
  | none => exact (setChan_self c s).symm

theorem releaseVerdict_examines (c : Chan) (e : Fin 2) (r : LineResult) (s : State) :
    Examines c s (releaseVerdict c e r s) := by
  rw [releaseVerdict_eq]
  refine ⟨?_, rfl, by rw [chan_setChan_same], rfl⟩
  exact (modPath_onlyChan c s fun _ => releasedPath s c e (resultWord r (s.chan c).tracks.length)).trans
    (modChan_onlyChan c _ fun _ => _)

/-! ## The retirement (R16, R48 step 5) -/

/-- R16: the unseen run to which a line's contribution is added. -/
def runBefore (k : Seen) (n : Nat) : Nat :=
  match k with
  | .examined => 0
  | .unseen => n
  | .passed => n

/-- R16: channel `ch` with its head entry `e` retired, the unseen run `n` and the billet's tally `m`. -/
def retiredChan (e : Fin 2) (n m : Nat) (ch : Channel) : Channel :=
  { ch with
    capture := { setEntry ch.capture e Entry.empty with queue := ch.capture.queue.drop 1, unseenRun := n }
    record := { ch.record with tallies := { ch.record.tallies with unseen := m } } }

theorem clearRun_chan (c : Chan) (k : Seen) (s : State) :
    clearRun c k s =
      setChan c
        { s.chan c with
          capture := { (s.chan c).capture with unseenRun := runBefore k (s.chan c).capture.unseenRun } } s := by
  cases k with
  | examined => rfl
  | unseen => exact (setChan_self c s).symm
  | passed => exact (setChan_self c s).symm

/-- R16: the retirement of a line that leaves its channel seeing. -/
theorem retire_seeing {c : Chan} {e : Fin 2} {k : Seen} {s : State} {n : Nat}
    (hn : n = contribution k (entryOf (s.chan c).capture e))
    (hblind : NotBlind s c (min (runBefore k (s.chan c).capture.unseenRun + n) 65535)) :
    retire c e k s =
      setChan c
        (retiredChan e (min (runBefore k (s.chan c).capture.unseenRun + n) 65535) (unseenTally s c n) (s.chan c))
        (modCounters c (fun x => { x with unseen := min (x.unseen + n) 65535 }) s) := by
  obtain ⟨v, hv⟩ : ∃ v, v = clearRun c k s := ⟨_, rfl⟩
  have hvc : v.chan c =
      { s.chan c with
        capture := { (s.chan c).capture with unseenRun := runBefore k (s.chan c).capture.unseenRun } } := by
    rw [hv, clearRun_chan, chan_setChan_same]
  have hopen : billetOpen v c = billetOpen s c := billetOpen_congr (by rw [hvc])
  have htally : unseenTally v c n = unseenTally s c n := unseenTally_congr n hopen (by rw [hvc])
  have hstays : blindTest c (unseenAdded v c n) = unseenAdded v c n := by
    refine blindTest_keeps ?_
    rw [billetOpen_unseenAdded, hopen, unseenAdded_chan, unseenChan, hvc]
    exact hblind
  rw [retire_eq, ← hv, ← hn, hstays, modChan, unseenAdded_chan]
  unfold unseenAdded
  rw [setChan_setChan, unseenChan, hvc, htally, hv, clearRun_chan]
  have hcounters : modCounters c (fun x => { x with unseen := min (x.unseen + n) 65535 })
      (setChan c
        { s.chan c with
          capture := { (s.chan c).capture with unseenRun := runBefore k (s.chan c).capture.unseenRun } } s) =
      setChan c
        { s.chan c with
          capture := { (s.chan c).capture with unseenRun := runBefore k (s.chan c).capture.unseenRun } }
        (modCounters c (fun x => { x with unseen := min (x.unseen + n) 65535 }) s) := rfl
  rw [hcounters, setChan_setChan]
  match e with
  | 0 => rfl
  | 1 => rfl

theorem blindTest_examines (c : Chan) (s : State) : Examines c s (blindTest c s) := by
  unfold blindTest
  split
  · have hcloses : Closes c (closeTracks c .blind s)
        (closeEpisode c ((closeTracks c .blind s).chan c).params .blind (closeTracks c .blind s)) :=
      closeEpisode_closes c _ _ .blind
    exact ((closeTracks_closes c s .blind).examines.trans hcloses.examines).trans
      ((modBand_examines c _ _).trans (modCapture_examines c _ _))
  · exact .refl c s

theorem retire_examines (c : Chan) (e : Fin 2) (k : Seen) (s : State) : Examines c s (retire c e k s) := by
  have hclear : Examines c s (clearRun c k s) := by
    rw [clearRun_chan]
    exact ⟨modChan_onlyChan c s fun _ => _, rfl, by rw [chan_setChan_same], rfl⟩
  have hadd : ∀ v n, Examines c v (unseenAdded v c n) := fun v n =>
    ⟨(unseenAdded_rest v c n).1, rfl, by rw [unseenAdded_chan]; rfl, rfl⟩
  rw [retire_eq]
  exact (hclear.trans (hadd _ _)).trans ((blindTest_examines c _).trans
    ⟨modChan_onlyChan c _ _, rfl, by rw [chan_modChan_same]; rfl, rfl⟩)

theorem examined_examines (a : Analysis) (e : Fin 2) (s : State) : Examines a.chan s (examined a e s) := by
  have hruns : Examines a.chan (applyOutcome a.chan (resultOf a e s) s)
      (applyRuns a.chan a.params (entryOf (s.chan a.chan).capture e) (resultOf a e s)
        (applyOutcome a.chan (resultOf a e s) s)) := by
    unfold applyRuns
    split
    · exact (runsTaken_takesRuns _ _ (lineRunsOf _ _ _ _) _ _).examines
    · exact .refl _ _
    · exact .refl _ _
    · exact .refl _ _
  exact ((applyOutcome_examines _ _ s).trans hruns).trans
    ((applyRecord_examines a _ _ _).trans (releaseVerdict_examines _ e _ _))

theorem retired_examines (a : Analysis) (e : Fin 2) (s : State) : Examines a.chan s (retired a e s) :=
  (examined_examines a e s).trans (retire_examines _ _ _ _)

/-! ## What the next line at the head leaves (R16, R26) -/

/-- From `s` to `t` channel `c`'s background and held trailers, the list of transactions and all of the other channels are kept. -/
structure Spares (c : Chan) (s t : State) : Prop where
  only : OnlyChan c s t
  held : (t.chan c).held = (s.chan c).held
  background : (t.chan c).background = (s.chan c).background
  list : t.path.list = s.path.list

theorem Spares.refl (c : Chan) (s : State) : Spares c s s := ⟨.refl c s, rfl, rfl, rfl⟩

theorem Spares.trans {c : Chan} {s t u : State} (h : Spares c s t) (k : Spares c t u) : Spares c s u :=
  ⟨h.only.trans k.only, k.held.trans h.held, k.background.trans h.background, k.list.trans h.list⟩

theorem KeepsLine.spares {c : Chan} {s t : State} (h : KeepsLine c s t) : Spares c s t :=
  ⟨h.only, h.held, h.background, h.list⟩

theorem setChan_spares {c : Chan} {ch : Channel} {s : State} (hheld : ch.held = (s.chan c).held)
    (hbackground : ch.background = (s.chan c).background) : Spares c s (setChan c ch s) :=
  (setChan_keepsLine hheld hbackground).spares

theorem switchInspecting_spares (c : Chan) (s : State) : Spares c s (switchInspecting c s) := by
  obtain ⟨-, -, -, hheld, hbackground, -, -⟩ := switched_rest (s.chan c)
  rw [switchInspecting_eq]
  unfold switchedIfInspecting
  split
  · exact setChan_spares hheld hbackground
  · exact setChan_spares rfl rfl

theorem actOnHead_spares (c : Chan) (e : Fin 2) (k : LineClass) (s : State) : Spares c s (actOnHead c e k s) := by
  unfold actOnHead
  cases k with
  | toAnalyse =>
    simp only
    split
    · rw [billetHead_eq]
      exact setChan_spares rfl rfl
    · exact .refl c s
  | noBillet =>
    simp only
    split
    · exact (switchInspecting_spares c s).trans (billetTail_tailed c _).keeps.spares
    · exact .refl c s
  | malformed => exact switchInspecting_spares c s
  | lamp => exact switchInspecting_spares c s
  | held => exact switchInspecting_spares c s
  | reverse => exact switchInspecting_spares c s

theorem retire_spares (c : Chan) (e : Fin 2) (k : Seen) (s : State) : Spares c s (retire c e k s) := by
  have hclear : Spares c s (clearRun c k s) := by
    rw [clearRun_chan]
    exact setChan_spares rfl rfl
  have hadd : ∀ v n, Spares c v (unseenAdded v c n) := fun v n =>
    ⟨(unseenAdded_rest v c n).1, by rw [unseenAdded_chan]; rfl, by rw [unseenAdded_chan]; rfl, rfl⟩
  rw [retire_eq]
  exact (hclear.trans (hadd _ _)).trans ((blindTest_keepsLine c _).1.spares.trans (setChan_spares rfl rfl))

theorem serveHead_spares (c : Chan) (n : Nat) (s : State) : Spares c s (serveHead c n s) := by
  induction n generalizing s with
  | zero => exact .refl c s
  | succ n ih =>
    have hnext : ∀ e k, Spares c s (serveHead c n (retire c e (classSeen k) (actOnHead c e k s))) := fun e k =>
      ((actOnHead_spares c e k s).trans (retire_spares c e _ _)).trans (ih _)
    unfold serveHead
    split
    · exact .refl c s
    · split
      · exact .refl c s
      · exact actOnHead_spares c _ _ s
      · exact hnext _ _

/-! ## The completion with nothing else due (R48) -/

theorem exec_completion {a : Analysis} {e : Fin 2} {s : State} (ha : s.engine.analysis = some a)
    (he : (s.chan a.chan).capture.queue.head? = some e) :
    exec .analysisCompletion s = .next (settleCommand (afterRetirement a.chan (retired a e s))) := by
  change execAnalysisCompletion s = _
  unfold execAnalysisCompletion
  simp only [ha, he, completeAnalysis_eq]

/-- R48 step 6: the engine IDLE, the last served channel kept. -/
theorem idleEngine_engine (s : State) : (idleEngine s).engine = { analysis := none, lastServed := s.engine.lastServed } := rfl

theorem takePending_none {c : Chan} {s : State} (h : (s.chan c).record.pendingCmd = none) : takePending c s = s := by
  rw [takePending, h]

theorem endAbandoned_none {c : Chan} {s : State} (h : (s.chan c).record.abandonDue = false) : endAbandoned c s = s := by
  rw [endAbandoned, h]
  rfl

/-- R48: with no command in progress or pending and no billet ending put off, the next line comes to the head. -/
theorem exec_completion_alone {a : Analysis} {e : Fin 2} {s : State} (ha : s.engine.analysis = some a)
    (he : (s.chan a.chan).capture.queue.head? = some e) (hp : (s.chan a.chan).record.pendingCmd = none)
    (hd : (s.chan a.chan).record.abandonDue = false) (hr : s.setup.command = .ready) :
    exec .analysisCompletion s = .next (idleEngine (serveHead a.chan 3 (retired a e s))) := by
  have hkeeps := retired_examines a e s
  obtain ⟨-, -, -, -, hpending, hdue⟩ := hkeeps.record
  have hready : (retired a e s).setup.command = .ready := by rw [hkeeps.only.setup, hr]
  have hwaits : resetPartWaits (retired a e s) = false := by rw [resetPartWaits, hready]
  have hafter : afterRetirement a.chan (retired a e s) = idleEngine (serveHead a.chan 3 (retired a e s)) := by
    unfold afterRetirement
    simp only
    rw [endAbandoned_none (hdue.trans hd), hwaits, takePending_none (hpending.trans hp)]
    rfl
  have hserved : (idleEngine (serveHead a.chan 3 (retired a e s))).setup.command = .ready := by
    rw [← hready]
    exact congrArg Setup.command (serveHead_onlyChan a.chan 3 _).setup
  rw [exec_completion ha he, hafter, settleCommand_ready hserved]

end Sys2Proof.Machine
end

section
/-! A completion that finds nothing else due: the figures, the released trailer, and the retired line (R16, R19, R29, R49, R50,
R53). -/

namespace Sys2Proof.Machine

open Sys2Proof.Safety

/-! ## What a completion has done before the entry is retired -/

/-- R48 step 2: the runs leave the line, its trailer and the background. -/
theorem applyRuns_work (c : Chan) (set : ParamSet) (en : Entry) (r : LineResult) (s : State) :
    ((applyRuns c set en r s).chan c).background = (s.chan c).background ∧
      ((applyRuns c set en r s).chan c).held = (s.chan c).held ∧
      ((applyRuns c set en r s).chan c).capture = (s.chan c).capture ∧ (applyRuns c set en r s).path.list = s.path.list := by
  unfold applyRuns
  split
  · have h := runsTaken_takesRuns c set
      (lineRunsOf en set.chan (position (lineCount en) (s.chan c).record.headCount set.strand.scale) r) r.band s
    exact ⟨h.background, h.held, h.capture, h.list⟩
  · exact ⟨rfl, rfl, rfl, rfl⟩
  · exact ⟨rfl, rfl, rfl, rfl⟩
  · exact ⟨rfl, rfl, rfl, rfl⟩

theorem applyRecord_list (a : Analysis) (count : Word32) (v : FinalVerdict) (s : State) :
    (applyRecord a count v s).path = s.path := by
  unfold applyRecord
  simp only
  split
  · rfl
  · rfl

theorem applyOutcome_list (c : Chan) (r : LineResult) (s : State) : (applyOutcome c r s).path.list = s.path.list := by
  rw [(applyOutcome_latches c r s).offers.list]
  unfold outcomeState
  split
  · rfl
  · rfl

section Work

variable (a : Analysis) (e : Fin 2) (s : State)

/-- Up to the record, the background is written, and the held trailers and the listed transactions stand. -/
theorem recorded_work :
    ((recorded a e s).chan a.chan).background = (resultOf a e s).background ∧
      ((recorded a e s).chan a.chan).held = (s.chan a.chan).held ∧
      ((recorded a e s).chan a.chan).capture = (s.chan a.chan).capture ∧ (recorded a e s).path.list = s.path.list := by
  have hchan := applyOutcome_chan a.chan (resultOf a e s) s
  obtain ⟨hbackground, hheld, hcapture, hlist⟩ := applyRuns_work a.chan a.params (entryOf (s.chan a.chan).capture e)
    (resultOf a e s) (applyOutcome a.chan (resultOf a e s) s)
  rw [hchan] at hbackground hheld hcapture
  rw [applyOutcome_list] at hlist
  rw [recorded, applyRecord_chan, applyRecord_list]
  exact ⟨hbackground, hheld, hcapture, hlist⟩

theorem heldOf_recorded : heldOf (recorded a e s) a.chan e = heldOf s a.chan e := by
  rw [heldOf, (recorded_work a e s).2.1]
  rfl

/-- R19: the trailer that the channel still holds for the line is released with the verdict word. -/
theorem examined_work :
    ((examined a e s).chan a.chan).background = (resultOf a e s).background ∧
      ((examined a e s).chan a.chan).held = heldAfter s a.chan e ∧
      ((examined a e s).chan a.chan).capture = (s.chan a.chan).capture ∧
      ∀ h, heldOf s a.chan e = some h →
        (examined a e s).path.list = s.path.list.map fun x =>
          if x.id = h.txn then
            { x with
              held := false
              body := rewriteBody h.beat
                (resultWord (resultOf a e s) ((recorded a e s).chan a.chan).tracks.length) x.body }
          else x := by
  obtain ⟨hbackground, hheld, hcapture, hlist⟩ := recorded_work a e s
  have hof := heldOf_recorded a e s
  rw [examined, releaseVerdict_eq, chan_setChan_same]
  refine ⟨hbackground, ?_, hcapture, fun h hh => ?_⟩
  · rw [heldAfter, hof, hheld]
    rfl
  · change (releasedPath (recorded a e s) a.chan e _).list = _
    rw [releasedPath, hof, hh, ← hlist]
    rfl

/-- What stands of it after the retirement and whatever the next line does at the head. -/
theorem completion_work {t : State} (ht : idleEngine (serveHead a.chan 3 (retired a e s)) = t) :
    (t.chan a.chan).background = (resultOf a e s).background ∧ (∀ x, x ≠ a.chan → t.chan x = s.chan x) ∧
      t.engine = { analysis := none, lastServed := s.engine.lastServed } ∧
      ∀ h, heldOf s a.chan e = some h →
        (t.chan a.chan).held = ((s.chan a.chan).held.filter fun k => decide (k ≠ h)) ∧
          t.path.list = s.path.list.map fun x =>
            if x.id = h.txn then
              { x with
                held := false
                body := rewriteBody h.beat
                  (resultWord (resultOf a e s) ((recorded a e s).chan a.chan).tracks.length) x.body }
            else x := by
  subst ht
  obtain ⟨hbackground, hheld, -, hlist⟩ := examined_work a e s
  have hspares : Spares a.chan (examined a e s) (serveHead a.chan 3 (retired a e s)) :=
    (retire_spares _ _ _ _).trans (serveHead_spares _ _ _)
  have honly := (examined_examines a e s).only.trans hspares.only
  refine ⟨hspares.background.trans hbackground, fun x hx => honly.others x hx, ?_, fun h hh => ⟨?_, ?_⟩⟩
  · rw [idleEngine_engine, honly.engine]
  · refine hspares.held.trans (hheld.trans ?_)
    rw [heldAfter, hh]
  · exact hspares.list.trans (hlist h hh)

/-! ## The line retired, none behind it -/

/-- R16: the state after the retirement of a line that leaves its channel seeing, with no line behind it. -/
theorem retired_seeing {n : Nat} (hq : (s.chan a.chan).capture.queue = [e])
    (hn : n = contribution (verdictSeen (resultOf a e s).verdict) (entryOf (s.chan a.chan).capture e))
    (hblind : NotBlind s a.chan
      (min (runBefore (verdictSeen (resultOf a e s).verdict) (s.chan a.chan).capture.unseenRun + n) 65535)) :
    serveHead a.chan 3 (retired a e s) =
      setChan a.chan
        (retiredChan e
          (min (runBefore (verdictSeen (resultOf a e s).verdict) (s.chan a.chan).capture.unseenRun + n) 65535)
          (unseenTally (examined a e s) a.chan n) ((examined a e s).chan a.chan))
        (modCounters a.chan (fun x => { x with unseen := min (x.unseen + n) 65535 }) (examined a e s)) := by
  have hkeeps := examined_examines a e s
  obtain ⟨-, -, hcapture, -⟩ := examined_work a e s
  have hseeing := retire_seeing (c := a.chan) (e := e) (k := verdictSeen (resultOf a e s).verdict) (s := examined a e s) (n := n)
    (by rw [hcapture]; exact hn)
    (by
      unfold NotBlind
      rw [hkeeps.billetOpen, hkeeps.params.1, hcapture]
      exact hblind)
  rw [hcapture] at hseeing
  rw [retired, hseeing]
  refine serveHead_empty ?_
  rw [chan_setChan_same, retiredChan, hcapture, hq]
  rfl

/-- R16: the capture that such a retirement leaves. -/
theorem retiredChan_capture {ch : Channel} (hq : ch.capture.queue = [e]) (n m : Nat) :
    (retiredChan e n m ch).capture = { setEntry ch.capture e Entry.empty with queue := [], unseenRun := n } := by
  rw [retiredChan, hq]
  rfl

/-- R29: but for an ANALYSED line, the channel is as it was but for its background, its held trailers and its record. -/
theorem examined_unanalysed (hv : (resultOf a e s).verdict ≠ .analysed) :
    (examined a e s).chan a.chan =
        { s.chan a.chan with
          background := (resultOf a e s).background
          held := heldAfter s a.chan e
          record := completedRecord (resultOf a e s).verdict a.role (lineCount (entryOf (s.chan a.chan).capture e))
            (s.chan a.chan).record } ∧
      (examined a e s).ring = s.ring ∧
      (examined a e s).status = (applyOutcome a.chan (resultOf a e s) s).status := by
  have hruns : ∀ x, applyRuns a.chan a.params (entryOf (s.chan a.chan).capture e) (resultOf a e s) x = x := by
    intro x
    unfold applyRuns
    split
    · next h => exact absurd h hv
    · rfl
    · rfl
    · rfl
  have hrecorded : recorded a e s =
      setChan a.chan
        { s.chan a.chan with
          background := (resultOf a e s).background
          record := completedRecord (resultOf a e s).verdict a.role (lineCount (entryOf (s.chan a.chan).capture e))
            (s.chan a.chan).record }
        (applyOutcome a.chan (resultOf a e s) s) := by
    rw [recorded, hruns, applyRecord_eq _ _ hv, applyOutcome_chan]
  have hring : (applyOutcome a.chan (resultOf a e s) s).ring = s.ring := by
    rw [(applyOutcome_latches _ _ _).offers.ring]
    unfold outcomeState
    split
    · rfl
    · rfl
  have hheld : heldAfter (recorded a e s) a.chan e = heldAfter s a.chan e := by
    rw [heldAfter, heldOf_recorded, (recorded_work a e s).2.1]
    rfl
  rw [examined, releaseVerdict_eq, hheld, hrecorded, chan_setChan_same, chan_setChan_same]
  exact ⟨rfl, hring, rfl⟩

end Work

/-! ## Seed, warm-up and obscured lines (R49, R50, R53) -/

theorem outcomeBits_obscured (bg : Store (Nat × Nat)) : outcomeBits (plainResult .obscured bg) = 8 :=
  (or_noBits _).trans (or_noBits 8)

/-- R69: a result without flags latches nothing but OBSCURED. -/
theorem applyOutcome_plain {v : FinalVerdict} (c : Chan) (bg : Store (Nat × Nat)) (s : State) (hv : v ≠ .obscured) :
    (applyOutcome c (plainResult v bg) s).status = s.status := by
  have happly : applyOutcome c (plainResult v bg) s = modChan c (fun ch => { ch with background := bg }) s := by
    unfold applyOutcome
    simp only
    rw [if_neg (show ¬(plainResult v bg).verdict = .obscured from hv)]
    rfl
  rw [happly]
  rfl

theorem applyOutcome_obscured (c : Chan) (bg : Store (Nat × Nat)) (s : State) :
    (applyOutcome c (plainResult .obscured bg) s).status.counters.get c =
        { s.status.counters.get c with obscured := min ((s.status.counters.get c).obscured + 1) 65535 } ∧
      ((applyOutcome c (plainResult .obscured bg) s).status.words.get c).latched =
        (s.status.words.get c).latched ||| 8 := by
  have h := applyOutcome_latches c (plainResult .obscured bg) s
  have hstate : outcomeState c (plainResult .obscured bg) s =
      modCounters c (fun k => { k with obscured := min (k.obscured + 1) 65535 })
        (setChan c { s.chan c with background := bg } s) := rfl
  rw [hstate, outcomeBits_obscured] at h
  refine ⟨?_, h.latched⟩
  rw [h.offers.counters]
  exact Bank16.get_set_same ..

end Sys2Proof.Machine
end

section
/-! The completions of seed, warm-up and obscured lines (R29, R49, R50, R53). -/

namespace Sys2Proof.Machine

open Sys2Proof.Safety

section Plain

variable {a : Analysis} {e : Fin 2} {s : State}

/-- R16: an examined line that leaves its channel seeing, with none behind it. -/
theorem retired_examined (hseen : verdictSeen (resultOf a e s).verdict = .examined)
    (hq : (s.chan a.chan).capture.queue = [e])
    (hblind : NotBlind s a.chan
      (min ((entryOf (s.chan a.chan).capture e).gap + (entryOf (s.chan a.chan).capture e).unseenAfter) 65535)) :
    serveHead a.chan 3 (retired a e s) =
      setChan a.chan
        (retiredChan e
          (min ((entryOf (s.chan a.chan).capture e).gap + (entryOf (s.chan a.chan).capture e).unseenAfter) 65535)
          (unseenTally (examined a e s) a.chan
            ((entryOf (s.chan a.chan).capture e).gap + (entryOf (s.chan a.chan).capture e).unseenAfter))
          ((examined a e s).chan a.chan))
        (modCounters a.chan
          (fun x => { x with
            unseen := min (x.unseen +
              ((entryOf (s.chan a.chan).capture e).gap + (entryOf (s.chan a.chan).capture e).unseenAfter)) 65535 })
          (examined a e s)) := by
  have hseeing := retired_seeing a e s
    (n := (entryOf (s.chan a.chan).capture e).gap + (entryOf (s.chan a.chan).capture e).unseenAfter) hq (by rw [hseen]; rfl)
  rw [hseen, show runBefore .examined (s.chan a.chan).capture.unseenRun = 0 from rfl, Nat.zero_add] at hseeing
  exact hseeing hblind

/-- R16: an obscured line that leaves its channel seeing, with none behind it. -/
theorem retired_obscured (hseen : verdictSeen (resultOf a e s).verdict = .unseen)
    (hq : (s.chan a.chan).capture.queue = [e])
    (hblind : NotBlind s a.chan
      (min ((s.chan a.chan).capture.unseenRun +
        ((entryOf (s.chan a.chan).capture e).gap + 1 + (entryOf (s.chan a.chan).capture e).unseenAfter)) 65535)) :
    serveHead a.chan 3 (retired a e s) =
      setChan a.chan
        (retiredChan e
          (min ((s.chan a.chan).capture.unseenRun +
            ((entryOf (s.chan a.chan).capture e).gap + 1 + (entryOf (s.chan a.chan).capture e).unseenAfter)) 65535)
          (unseenTally (examined a e s) a.chan
            ((entryOf (s.chan a.chan).capture e).gap + 1 + (entryOf (s.chan a.chan).capture e).unseenAfter))
          ((examined a e s).chan a.chan))
        (modCounters a.chan
          (fun x => { x with
            unseen := min (x.unseen +
              ((entryOf (s.chan a.chan).capture e).gap + 1 + (entryOf (s.chan a.chan).capture e).unseenAfter)) 65535 })
          (examined a e s)) := by
  have hseeing := retired_seeing a e s
    (n := (entryOf (s.chan a.chan).capture e).gap + 1 + (entryOf (s.chan a.chan).capture e).unseenAfter) hq (by rw [hseen]; rfl)
  rw [hseen] at hseeing
  exact hseeing hblind

/-- R16: the tally goes by the billet as it was before the completion, and by the tally as it was. -/
theorem unseenTally_examined (n : Nat)
    (h : ((examined a e s).chan a.chan).record.tallies.unseen = (s.chan a.chan).record.tallies.unseen) :
    unseenTally (examined a e s) a.chan n = unseenTally s a.chan n := by
  unfold unseenTally
  rw [(examined_examines a e s).billetOpen, h]

/-- R29: the record of a line that is not ANALYSED, once retired. -/
theorem retiredChan_plain {n m : Nat} (hv : (resultOf a e s).verdict ≠ .analysed)
    (hq : (s.chan a.chan).capture.queue = [e]) :
    (retiredChan e n m ((examined a e s).chan a.chan)).capture =
        { setEntry (s.chan a.chan).capture e Entry.empty with queue := [], unseenRun := n } ∧
      (retiredChan e n m ((examined a e s).chan a.chan)).tracks = (s.chan a.chan).tracks ∧
      (retiredChan e n m ((examined a e s).chan a.chan)).band = (s.chan a.chan).band ∧
      (retiredChan e n m ((examined a e s).chan a.chan)).record =
        { completedRecord (resultOf a e s).verdict a.role (lineCount (entryOf (s.chan a.chan).capture e))
            (s.chan a.chan).record with
          tallies := { (s.chan a.chan).record.tallies with unseen := m } } := by
  obtain ⟨hchan, -, -⟩ := examined_unanalysed a e s hv
  have htallies : (completedRecord (resultOf a e s).verdict a.role (lineCount (entryOf (s.chan a.chan).capture e))
      (s.chan a.chan).record).tallies = (s.chan a.chan).record.tallies := by
    cases hverdict : (resultOf a e s).verdict with
    | seed => rfl
    | warmup => rfl
    | obscured => rfl
    | analysed => exact absurd hverdict hv
  have hcapture := retiredChan_capture e (ch := (examined a e s).chan a.chan) (by rw [hchan]; exact hq) n m
  refine ⟨?_, ?_, ?_, ?_⟩
  · rw [hcapture, hchan]
  · rw [retiredChan, hchan]
  · rw [retiredChan, hchan]
  · rw [retiredChan, hchan]
    simp only
    rw [htallies]

theorem unseen_plain (hv : (resultOf a e s).verdict ≠ .analysed) :
    ((examined a e s).chan a.chan).record.tallies.unseen = (s.chan a.chan).record.tallies.unseen := by
  obtain ⟨hchan, -, -⟩ := examined_unanalysed a e s hv
  rw [hchan]
  cases hverdict : (resultOf a e s).verdict with
  | seed => rfl
  | warmup => rfl
  | obscured => rfl
  | analysed => exact absurd hverdict hv

/-! ## Seed lines (R49) -/

theorem resultOf_seed (hrole : a.role = .seed) :
    resultOf a e s =
      plainResult .seed
        (updatedBackground (heldW s) a.params.chan (pixel (entryOf (s.chan a.chan).capture e)) (s.chan a.chan).background
          seedPair) := by
  rw [resultOf, hrole]
  rfl

/-- R16, R29: a seed line retired, with none behind it. -/
theorem seed_retired (hrole : a.role = .seed) (hq : (s.chan a.chan).capture.queue = [e])
    (hblind : NotBlind s a.chan
      (min ((entryOf (s.chan a.chan).capture e).gap + (entryOf (s.chan a.chan).capture e).unseenAfter) 65535)) {t : State}
    (ht : serveHead a.chan 3 (retired a e s) = t) :
    (t.chan a.chan).capture =
        { setEntry (s.chan a.chan).capture e Entry.empty with
          queue := []
          unseenRun :=
            min ((entryOf (s.chan a.chan).capture e).gap + (entryOf (s.chan a.chan).capture e).unseenAfter) 65535 } ∧
      (t.chan a.chan).tracks = (s.chan a.chan).tracks ∧ (t.chan a.chan).band = (s.chan a.chan).band ∧
      (t.chan a.chan).record.state = (s.chan a.chan).record.state ∧
      (t.chan a.chan).record.lastAnalysed = (s.chan a.chan).record.lastAnalysed ∧
      (t.chan a.chan).record.warmupLeft = (s.chan a.chan).record.warmupLeft ∧
      (t.chan a.chan).record.serial = (s.chan a.chan).record.serial := by
  have hresult := resultOf_seed (e := e) (s := s) hrole
  have hverdict : (resultOf a e s).verdict = .seed := by rw [hresult]; rfl
  have hv : (resultOf a e s).verdict ≠ .analysed := by rw [hverdict]; exact FinalVerdict.noConfusion
  rw [retired_examined (by rw [hverdict]; rfl) hq hblind] at ht
  obtain ⟨hcapture, htracks, hband, hrecord⟩ := retiredChan_plain (n :=
    min ((entryOf (s.chan a.chan).capture e).gap + (entryOf (s.chan a.chan).capture e).unseenAfter) 65535) (m :=
    unseenTally (examined a e s) a.chan
      ((entryOf (s.chan a.chan).capture e).gap + (entryOf (s.chan a.chan).capture e).unseenAfter)) hv hq
  rw [← ht, chan_setChan_same, hcapture, htracks, hband, hrecord, hverdict]
  exact ⟨rfl, rfl, rfl, rfl, rfl, rfl, rfl⟩

/-! ## Obscured lines (R53) -/

theorem resultOf_obscured (hrole : a.role ≠ .seed)
    (h : ObscuredLine (heldW s) a.params.chan (pixel (entryOf (s.chan a.chan).capture e))) :
    resultOf a e s = plainResult .obscured (s.chan a.chan).background :=
  analyse_obscured _ _ _ _ hrole h

theorem obscured_retired {en : Entry} (hresult : resultOf a e s = plainResult .obscured (s.chan a.chan).background)
    (hq : (s.chan a.chan).capture.queue = [e]) (hen : en = entryOf (s.chan a.chan).capture e)
    (hblind : NotBlind s a.chan (min ((s.chan a.chan).capture.unseenRun + (en.gap + 1 + en.unseenAfter)) 65535)) {t : State}
    (ht : serveHead a.chan 3 (retired a e s) = t) :
    (t.chan a.chan).capture =
        { setEntry (s.chan a.chan).capture e Entry.empty with
          queue := []
          unseenRun := min ((s.chan a.chan).capture.unseenRun + (en.gap + 1 + en.unseenAfter)) 65535 } ∧
      (t.chan a.chan).tracks = (s.chan a.chan).tracks ∧ (t.chan a.chan).band = (s.chan a.chan).band ∧ t.ring = s.ring ∧
      (t.chan a.chan).record =
        { (s.chan a.chan).record with
          warmupLeft :=
            if a.role = .warmup then (s.chan a.chan).record.warmupLeft - 1 else (s.chan a.chan).record.warmupLeft
          lastAnalysed := lastAfter (s.chan a.chan).record.lastAnalysed (lineCount en)
          tallies := { (s.chan a.chan).record.tallies with
            unseen := unseenTally s a.chan (en.gap + 1 + en.unseenAfter) } } ∧
      t.status.counters.get a.chan =
        { s.status.counters.get a.chan with
          obscured := min ((s.status.counters.get a.chan).obscured + 1) 65535
          unseen := min ((s.status.counters.get a.chan).unseen + (en.gap + 1 + en.unseenAfter)) 65535 } ∧
      (t.status.words.get a.chan).latched = (s.status.words.get a.chan).latched ||| 8 := by
  subst hen
  have hverdict : (resultOf a e s).verdict = .obscured := by rw [hresult]; rfl
  have hv : (resultOf a e s).verdict ≠ .analysed := by rw [hverdict]; exact FinalVerdict.noConfusion
  rw [retired_obscured (by rw [hverdict]; rfl) hq hblind, unseenTally_examined _ (unseen_plain hv)] at ht
  obtain ⟨hcapture, htracks, hband, hrecord⟩ := retiredChan_plain (n :=
    min ((s.chan a.chan).capture.unseenRun +
      ((entryOf (s.chan a.chan).capture e).gap + 1 + (entryOf (s.chan a.chan).capture e).unseenAfter)) 65535) (m :=
    unseenTally s a.chan
      ((entryOf (s.chan a.chan).capture e).gap + 1 + (entryOf (s.chan a.chan).capture e).unseenAfter)) hv hq
  obtain ⟨-, hring, hstatus⟩ := examined_unanalysed a e s hv
  obtain ⟨hcounters, hlatched⟩ := applyOutcome_obscured a.chan (s.chan a.chan).background s
  rw [hresult] at hstatus
  rw [← ht, chan_setChan_same, hcapture, htracks, hband, hrecord, hverdict]
  refine ⟨rfl, rfl, rfl, hring, ?_, ?_, ?_⟩
  · unfold completedRecord
    simp only
    rw [furthestCount_eq]
  · change ((examined a e s).status.counters.set a.chan _).get a.chan = _
    rw [Bank16.get_set_same, hstatus, hcounters]
  · change ((examined a e s).status.words.get a.chan).latched = _
    rw [hstatus, hlatched]

/-! ## Warm-up lines (R50) -/

theorem resultOf_warmup (hrole : a.role = .warmup)
    (h : ¬ObscuredLine (heldW s) a.params.chan (pixel (entryOf (s.chan a.chan).capture e))) :
    resultOf a e s =
      plainResult .warmup
        (updatedBackground (heldW s) a.params.chan (pixel (entryOf (s.chan a.chan).capture e)) (s.chan a.chan).background
          (warmupPair a.params.chan)) := by
  rw [resultOf, hrole]
  exact analyse_warmup _ _ _ _ h

theorem warmup_retired {en : Entry} {bg : Store (Nat × Nat)} (hresult : resultOf a e s = plainResult .warmup bg)
    (hq : (s.chan a.chan).capture.queue = [e]) (hen : en = entryOf (s.chan a.chan).capture e)
    (hblind : NotBlind s a.chan (min (en.gap + en.unseenAfter) 65535)) {t : State}
    (ht : serveHead a.chan 3 (retired a e s) = t) :
    (t.chan a.chan).capture =
        { setEntry (s.chan a.chan).capture e Entry.empty with
          queue := []
          unseenRun := min (en.gap + en.unseenAfter) 65535 } ∧
      (t.chan a.chan).tracks = (s.chan a.chan).tracks ∧ (t.chan a.chan).band = (s.chan a.chan).band ∧ t.ring = s.ring ∧
      (t.chan a.chan).record =
        { (s.chan a.chan).record with
          warmupLeft := (s.chan a.chan).record.warmupLeft - 1
          lastAnalysed := lastAfter (s.chan a.chan).record.lastAnalysed (lineCount en)
          tallies := { (s.chan a.chan).record.tallies with
            unseen := unseenTally s a.chan (en.gap + en.unseenAfter) } } ∧
      t.status.words = s.status.words ∧
      t.status.counters.get a.chan =
        { s.status.counters.get a.chan with
          unseen := min ((s.status.counters.get a.chan).unseen + (en.gap + en.unseenAfter)) 65535 } := by
  subst hen
  have hverdict : (resultOf a e s).verdict = .warmup := by rw [hresult]; rfl
  have hv : (resultOf a e s).verdict ≠ .analysed := by rw [hverdict]; exact FinalVerdict.noConfusion
  rw [retired_examined (by rw [hverdict]; rfl) hq hblind, unseenTally_examined _ (unseen_plain hv)] at ht
  obtain ⟨hcapture, htracks, hband, hrecord⟩ := retiredChan_plain (n :=
    min ((entryOf (s.chan a.chan).capture e).gap + (entryOf (s.chan a.chan).capture e).unseenAfter) 65535) (m :=
    unseenTally s a.chan
      ((entryOf (s.chan a.chan).capture e).gap + (entryOf (s.chan a.chan).capture e).unseenAfter)) hv hq
  obtain ⟨-, hring, hstatus⟩ := examined_unanalysed a e s hv
  rw [hresult, applyOutcome_plain _ _ _ (by exact FinalVerdict.noConfusion)] at hstatus
  rw [← ht, chan_setChan_same, hcapture, htracks, hband, hrecord, hverdict]
  refine ⟨rfl, rfl, rfl, hring, ?_, ?_, ?_⟩
  · unfold completedRecord
    simp only
    rw [furthestCount_eq]
  · change (examined a e s).status.words = _
    rw [hstatus]
  · change ((examined a e s).status.counters.set a.chan _).get a.chan = _
    rw [Bank16.get_set_same, hstatus]

end Plain

end Sys2Proof.Machine
end

section
/-! The completion of an ordinary line (R29, R48, R54 to R69). -/

namespace Sys2Proof.Machine

open Sys2Proof.Safety

/-! ## The runs, taken before or after the outcome is applied -/

/-- What the status unit of the second state shares with that of the first. -/
def SameCounts (c : Chan) (st su : Status) : Prop :=
  su.counters = st.counters ∧ su.partCounters = st.partCounters ∧ su.part.latched = st.part.latched ∧
    (su.words.get c).latched.getLsbD 5 = (st.words.get c).latched.getLsbD 5

theorem sameCounts_latchBit {c : Chan} (o : Owner) (i : Nat) {s t : State} (h : SameCounts c s.status t.status) :
    SameCounts c (latchBit o i s).status (latchBit o i t).status := by
  obtain ⟨hcounters, hpartCounters, hpart, hbit⟩ := h
  have hs := latchBit_offersOnly o i s
  have ht := latchBit_offersOnly o i t
  refine ⟨by rw [ht.counters, hs.counters, hcounters], by rw [ht.partCounters, hs.partCounters, hpartCounters], ?_, ?_⟩
  · by_cases ho : o = .part
    · subst ho
      have h1 : (latchBit .part i s).status.part.latched = s.status.part.latched ||| condSet i :=
        congrArg CondWord.latched (condWordOf_latchBit_same .part i s)
      have h2 : (latchBit .part i t).status.part.latched = t.status.part.latched ||| condSet i :=
        congrArg CondWord.latched (condWordOf_latchBit_same .part i t)
      rw [h1, h2, hpart]
    · have h1 : (latchBit o i s).status.part = s.status.part := condWordOf_latchBit_other i s (Ne.symm ho)
      have h2 : (latchBit o i t).status.part = t.status.part := condWordOf_latchBit_other i t (Ne.symm ho)
      rw [h1, h2, hpart]
  · by_cases ho : o = .chan c
    · subst ho
      have h1 : ((latchBit (.chan c) i s).status.words.get c).latched = (s.status.words.get c).latched ||| condSet i :=
        congrArg CondWord.latched (condWordOf_latchBit_same (.chan c) i s)
      have h2 : ((latchBit (.chan c) i t).status.words.get c).latched = (t.status.words.get c).latched ||| condSet i :=
        congrArg CondWord.latched (condWordOf_latchBit_same (.chan c) i t)
      rw [h1, h2, BitVec.getLsbD_or, BitVec.getLsbD_or, hbit]
    · have h1 : (latchBit o i s).status.words.get c = s.status.words.get c :=
        condWordOf_latchBit_other (p := .chan c) i s (Ne.symm ho)
      have h2 : (latchBit o i t).status.words.get c = t.status.words.get c :=
        condWordOf_latchBit_other (p := .chan c) i t (Ne.symm ho)
      rw [h1, h2, hbit]

/-- The states before and after an outcome is applied: the background of channel `c`, the outgoing writes and the conditions of the
outcome apart. -/
def outcomeApart (c : Chan) (bg : Store (Nat × Nat)) : Apart where
  background _ := bg
  queue q := q
  pending k := k
  due b := b
  command k := k
  outside _ st _ su := SameCounts c st su
  latches o i _ _ _ h := sameCounts_latchBit o i h
  counts d f p st q su h := by
    obtain ⟨hcounters, hrest⟩ := h
    exact ⟨by simp only [hcounters], hrest⟩
  partCounts f p st q su h := by
    obtain ⟨hcounters, hpartCounters, hrest⟩ := h
    exact ⟨hcounters, by simp only [hpartCounters], hrest⟩
  lists _ _ _ _ _ h := h

theorem outcomeBits_trackFull (r : LineResult) : (outcomeBits r).getLsbD 5 = false := by
  unfold outcomeBits
  split <;> split <;> split <;> rfl

theorem OffersOnly.eq {s t : State} (h : OffersOnly s t) : t = { s with path := t.path, status := t.status } := by
  obtain ⟨hpending, hus, hms, husInMs, hreset, hmf, hchans, hunrouted, hengine, hring, hstrands, hsetup, hfree, -⟩ := h
  cases t
  simp only at *
  subst_vars
  rfl

theorem applyOutcome_beside {c : Chan} {r : LineResult} (s : State) (hv : r.verdict ≠ .obscured) :
    Beside (outcomeApart c r.background) c s (applyOutcome c r s) := by
  have hlatch := applyOutcome_latches c r s
  have hstate : outcomeState c r s = setChan c { s.chan c with background := r.background } s := if_neg hv
  rw [hstate] at hlatch
  have hoffers := hlatch.offers
  refine ⟨hoffers.chans, ⟨hoffers.counters, hoffers.partCounters, congrArg CondWord.latched hlatch.part, ?_⟩, ?_⟩
  · rw [hlatch.latched, BitVec.getLsbD_or, outcomeBits_trackFull, Bool.or_false]
    rfl
  · rw [hoffers.chans]
    exact hoffers.eq

/-! ## An ordinary line (R48 to R69) -/

section Ordinary

variable {a : Analysis} {e : Fin 2} {s : State}

theorem resultOf_ordinary (hrole : a.role = .ordinary)
    (h : ¬ObscuredLine (heldW s) a.params.chan (pixel (entryOf (s.chan a.chan).capture e))) :
    resultOf a e s =
      ordinaryResult (heldW s) a.params.chan (pixel (entryOf (s.chan a.chan).capture e)) (s.chan a.chan).background := by
  rw [resultOf, hrole]
  exact analyseOrdinary_eq _ _ _ _ h

/-- What the track table takes of the line. -/
def lineTaken (a : Analysis) (e : Fin 2) (s : State) : LineRuns :=
  lineRunsOf (entryOf (s.chan a.chan).capture e) a.params.chan
    (position (lineCount (entryOf (s.chan a.chan).capture e)) (s.chan a.chan).record.headCount a.params.strand.scale)
    (resultOf a e s)

/-- R48, steps 1 and 2: the outcome applied and the runs taken. -/
def ranOn (a : Analysis) (e : Fin 2) (s : State) : State :=
  runsTaken a.chan a.params (lineTaken a e s) (resultOf a e s).band (applyOutcome a.chan (resultOf a e s) s)

theorem recorded_ordinary (hv : (resultOf a e s).verdict = .analysed) :
    recorded a e s = applyRecord a (lineCount (entryOf (s.chan a.chan).capture e)) .analysed (ranOn a e s) := by
  have hhead : ((applyOutcome a.chan (resultOf a e s) s).chan a.chan).record = (s.chan a.chan).record := by
    rw [applyOutcome_chan]
  have hruns : applyRuns a.chan a.params (entryOf (s.chan a.chan).capture e) (resultOf a e s)
      (applyOutcome a.chan (resultOf a e s) s) = ranOn a e s := by
    unfold applyRuns
    rw [hv]
    simp only
    rw [hhead]
    rfl
  rw [recorded, hruns, hv]

/-- The runs taken as the statement takes them: of the state before the completion. -/
theorem ranOn_beside (hv : (resultOf a e s).verdict = .analysed) :
    Beside (outcomeApart a.chan (resultOf a e s).background) a.chan
      (runsTaken a.chan a.params (lineTaken a e s) (resultOf a e s).band s) (ranOn a e s) :=
  ((applyOutcome_beside s (by rw [hv]; exact FinalVerdict.noConfusion)).takeLine _ _).takeBandOutcome _ _ _ _

theorem ranOn_tracks (hv : (resultOf a e s).verdict = .analysed) :
    ((recorded a e s).chan a.chan).tracks = ((takeLine a.chan a.params (lineTaken a e s) s).chan a.chan).tracks := by
  rw [recorded_ordinary hv, applyRecord_chan]
  exact (ranOn_beside hv).tracks.trans (takeBandOutcome_closes _ _ _ _ _ _).2

/-- R48 step 3: the record of an ANALYSED line. -/
theorem examined_ordinary (hv : (resultOf a e s).verdict = .analysed) :
    (examined a e s).chan a.chan =
        { (ranOn a e s).chan a.chan with
          held := heldAfter s a.chan e
          record := completedRecord .analysed a.role (lineCount (entryOf (s.chan a.chan).capture e))
            ((ranOn a e s).chan a.chan).record } ∧
      (examined a e s).ring = (ranOn a e s).ring ∧ (examined a e s).strands = (ranOn a e s).strands ∧
      (examined a e s).status =
        { (ranOn a e s).status with
          counters := (ranOn a e s).status.counters.set a.chan
            { (ranOn a e s).status.counters.get a.chan with
              analysed := min (((ranOn a e s).status.counters.get a.chan).analysed + 1) 65535 } } := by
  have hheld : heldAfter (recorded a e s) a.chan e = heldAfter s a.chan e := by
    rw [heldAfter, heldOf_recorded, (recorded_work a e s).2.1]
    rfl
  rw [examined, releaseVerdict_eq, hheld, chan_setChan_same, recorded_ordinary hv, applyRecord_chan]
  exact ⟨rfl, rfl, rfl, rfl⟩

/-- R16, R29: an ordinary line retired, with none behind it. -/
theorem ordinary_retired {en : Entry} (hv : (resultOf a e s).verdict = .analysed)
    (hq : (s.chan a.chan).capture.queue = [e]) (hen : en = entryOf (s.chan a.chan).capture e)
    (hblind : NotBlind s a.chan (min (en.gap + en.unseenAfter) 65535)) {t : State}
    (ht : serveHead a.chan 3 (retired a e s) = t) :
    (t.chan a.chan).capture =
        { setEntry (s.chan a.chan).capture e Entry.empty with
          queue := []
          unseenRun := min (en.gap + en.unseenAfter) 65535 } ∧
      (t.chan a.chan).record =
        { (s.chan a.chan).record with
          lastAnalysed := lastAfter (s.chan a.chan).record.lastAnalysed (lineCount en)
          serial := ((ranOn a e s).chan a.chan).record.serial
          tallies := { ((ranOn a e s).chan a.chan).record.tallies with
            analysed := min ((s.chan a.chan).record.tallies.analysed + 1) 65535
            unseen := unseenTally s a.chan (en.gap + en.unseenAfter) } } ∧
      (t.chan a.chan).tracks = ((ranOn a e s).chan a.chan).tracks ∧
      (t.chan a.chan).band = ((ranOn a e s).chan a.chan).band ∧ t.ring = (ranOn a e s).ring ∧
      t.strands = (ranOn a e s).strands ∧
      t.status =
        { (ranOn a e s).status with
          counters := (ranOn a e s).status.counters.set a.chan
            { (ranOn a e s).status.counters.get a.chan with
              analysed := min (((ranOn a e s).status.counters.get a.chan).analysed + 1) 65535
              unseen := min (((ranOn a e s).status.counters.get a.chan).unseen + (en.gap + en.unseenAfter)) 65535 } } := by
  subst hen
  have htaken := runsTaken_takesRuns a.chan a.params (lineTaken a e s) (resultOf a e s).band
    (applyOutcome a.chan (resultOf a e s) s)
  have hcapture := htaken.capture
  have hrecord := htaken.record
  rw [applyOutcome_chan] at hcapture hrecord
  obtain ⟨hchan, hring, hstrands, hstatus⟩ := examined_ordinary hv
  have hunseen : ((examined a e s).chan a.chan).record.tallies.unseen = (s.chan a.chan).record.tallies.unseen := by
    rw [hchan]
    exact congrArg (fun r => r.tallies.unseen) hrecord
  rw [retired_examined (by rw [hv]; rfl) hq hblind, unseenTally_examined _ hunseen] at ht
  rw [← ht, chan_setChan_same]
  refine ⟨?_, ?_, by rw [retiredChan, hchan], by rw [retiredChan, hchan], hring, hstrands, ?_⟩
  · rw [retiredChan_capture e (by rw [hchan]; exact (congrArg Capture.queue hcapture).trans hq), hchan]
    exact congrArg (fun k => { setEntry k e Entry.empty with
      queue := []
      unseenRun := min ((entryOf (s.chan a.chan).capture e).gap + (entryOf (s.chan a.chan).capture e).unseenAfter) 65535 })
      hcapture
  · have hran : ((ranOn a e s).chan a.chan).record =
        { (s.chan a.chan).record with
          serial := ((ranOn a e s).chan a.chan).record.serial
          tallies := { ((ranOn a e s).chan a.chan).record.tallies with
            analysed := (s.chan a.chan).record.tallies.analysed
            unseen := (s.chan a.chan).record.tallies.unseen } } := hrecord
    rw [retiredChan, hchan]
    simp only
    rw [hran]
    unfold completedRecord
    simp only
    rw [furthestCount_eq]
    rfl
  · rw [setChan_status, modCounters_status, hstatus, Bank16.get_set_same, Bank16.set_set]

/-- R29, R69: the counters and the conditions that the outcome and the runs leave. -/
theorem ranOn_counts (hv : (resultOf a e s).verdict = .analysed) :
    ((ranOn a e s).status.counters.get a.chan).analysed = (s.status.counters.get a.chan).analysed ∧
      ((ranOn a e s).status.counters.get a.chan).unseen = (s.status.counters.get a.chan).unseen ∧
      ((ranOn a e s).status.counters.get a.chan).obscured = (s.status.counters.get a.chan).obscured ∧
      ∃ bits, ((ranOn a e s).status.words.get a.chan).latched =
        (s.status.words.get a.chan).latched ||| outcomeBits (resultOf a e s) ||| bits := by
  have htaken := runsTaken_takesRuns a.chan a.params (lineTaken a e s) (resultOf a e s).band
    (applyOutcome a.chan (resultOf a e s) s)
  have hlatch := applyOutcome_latches a.chan (resultOf a e s) s
  have hstate : outcomeState a.chan (resultOf a e s) s =
      setChan a.chan { s.chan a.chan with background := (resultOf a e s).background } s :=
    if_neg (by rw [hv]; exact FinalVerdict.noConfusion)
  rw [hstate] at hlatch
  have hcounters : (applyOutcome a.chan (resultOf a e s) s).status.counters = s.status.counters := hlatch.offers.counters
  have hget := htaken.counters
  rw [hcounters] at hget
  obtain ⟨bits, hbits⟩ := htaken.latched
  refine ⟨(congrArg ChanCounters.analysed hget :), (congrArg ChanCounters.unseen hget :),
    (congrArg ChanCounters.obscured hget :), bits, ?_⟩
  rw [ranOn, hbits, hlatch.latched]
  rfl

end Ordinary

end Sys2Proof.Machine
end

section
/-! The completion of a line set beside the same completion with nothing else due: what the one leaves, the other leaves, but for what
was due (R33, R48). -/

namespace Sys2Proof.Machine

open Sys2Proof.Safety

/-! ## The states side by side -/

theorem latchBit_outside {s t : State} (o : Owner) (i : Nat) (hstrap : t.setup.strap = s.setup.strap)
    (h : s.path = t.path ∧ s.status = t.status) :
    (latchBit o i s).path = (latchBit o i t).path ∧ (latchBit o i s).status = (latchBit o i t).status := by
  obtain ⟨hpath, hstatus⟩ := h
  have hsummary : ∀ {x y : State} (v : BitVec 17), y.setup.strap = x.setup.strap → x.path = y.path → x.status = y.status →
      (summaryTakes v x).path = (summaryTakes v y).path ∧ (summaryTakes v x).status = (summaryTakes v y).status := by
    intro x y v hs hp hst
    unfold summaryTakes
    rw [hst]
    split
    · exact ⟨hp, hst⟩
    · simp only [offerWord, modPath, modStatus, hs, hp, hst, and_self]
  unfold latchBit setLatched
  rw [hstatus]
  split
  · exact ⟨hpath, hstatus⟩
  · rw [refreshAttention_eq, refreshAttention_eq]
    have hst : (offerWord (conditionAt (ownerIndex o))
          (conditionWord ((condWordOf t.status o).latched ||| condSet i))
          (modStatus (fun st => setCondWord o
            { condWordOf st o with latched := (condWordOf t.status o).latched ||| condSet i } st) s)).status =
        (offerWord (conditionAt (ownerIndex o))
          (conditionWord ((condWordOf t.status o).latched ||| condSet i))
          (modStatus (fun st => setCondWord o
            { condWordOf st o with latched := (condWordOf t.status o).latched ||| condSet i } st) t)).status := by
      simp only [offerWord, modPath, modStatus, hstatus]
    rw [hst]
    refine hsummary _ hstrap ?_ hst
    simp only [offerWord, modPath, modStatus, hstrap, hpath]

/-- A channel with no command pending, no billet ending put off and the queue `q`, no command in progress; nothing else differs. -/
def aloneApart (q : List (Fin 2)) : Apart where
  background b := b
  queue _ := q
  pending _ := none
  due _ := false
  command _ := .ready
  outside p st t su := p = t ∧ st = su
  latches o i _ _ hs h := latchBit_outside o i hs h
  counts d f p st t su h := by
    obtain ⟨rfl, rfl⟩ := h
    exact ⟨rfl, rfl⟩
  partCounts f p st t su h := by
    obtain ⟨rfl, rfl⟩ := h
    exact ⟨rfl, rfl⟩
  lists f p st t su h := by
    obtain ⟨rfl, rfl⟩ := h
    exact ⟨rfl, rfl⟩

/-- R33: channel `ch` with nothing due and the queue `q`. -/
def aloneChan (q : List (Fin 2)) (ch : Channel) : Channel :=
  { ch with
    record := { ch.record with pendingCmd := none, abandonDue := false }
    capture := { ch.capture with queue := q } }

/-- The state with nothing due at channel `c`, its queue `q`, and no command in progress. -/
def aloneState (q : List (Fin 2)) (c : Chan) (s : State) : State :=
  setChan c (aloneChan q (s.chan c)) { s with setup := { s.setup with command := .ready } }

theorem aloneState_chan (q : List (Fin 2)) (c : Chan) (s : State) : (aloneState q c s).chan c = aloneChan q (s.chan c) := by
  rw [aloneState, chan_setChan_same]

theorem aloneState_others (q : List (Fin 2)) {c d : Chan} (s : State) (hd : d ≠ c) : (aloneState q c s).chan d = s.chan d := by
  rw [aloneState, chan_setChan_other _ _ hd]
  rfl

theorem aloneState_beside (q : List (Fin 2)) (c : Chan) (s : State) : Beside (aloneApart q) c s (aloneState q c s) :=
  ⟨rfl, ⟨rfl, rfl⟩, rfl⟩

theorem beside_aloneState {q : List (Fin 2)} {c : Chan} {s t : State} (h : Beside (aloneApart q) c s t) : t = aloneState q c s := by
  obtain ⟨hpath, hstatus⟩ := h.outside
  rw [h.rest, h.chans, ← hpath, ← hstatus]
  rfl

/-! ## The completion side by side -/

namespace Beside

variable {q : List (Fin 2)} {c : Chan} {s t : State}

theorem entry (h : Beside (aloneApart q) c s t) (e : Fin 2) :
    entryOf (t.chan c).capture e = entryOf (s.chan c).capture e := by
  rw [h.chan]
  match e with
  | 0 => rfl
  | 1 => rfl

theorem applyOutcome (h : Beside (aloneApart q) c s t) (r : LineResult) :
    Beside (aloneApart q) c (applyOutcome c r s) (applyOutcome c r t) := by
  have hbackground : Beside (aloneApart q) c (Machine.modChan c (fun ch => { ch with background := r.background }) s)
      (Machine.modChan c (fun ch => { ch with background := r.background }) t) := h.modChan _ rfl
  have hif : ∀ {x y : State} (p : Prop) [Decidable p] (k : ChanCond), Beside (aloneApart q) c x y →
      Beside (aloneApart q) c (if p then Machine.latchChan c k x else x) (if p then Machine.latchChan c k y else y) := by
    intro x y p _ k hxy
    split
    · exact hxy.latchChan c k
    · exact hxy
  unfold Machine.applyOutcome
  simp only
  refine hif _ _ (hif _ _ ?_)
  split
  · exact (hbackground.modCounters c _).latchChan c _
  · exact hbackground

theorem applyRuns (h : Beside (aloneApart q) c s t) (set : ParamSet) (en : Entry) (r : LineResult) :
    Beside (aloneApart q) c (applyRuns c set en r s) (applyRuns c set en r t) := by
  have hhead : (t.chan c).record.headCount = (s.chan c).record.headCount := by rw [h.chan]; rfl
  unfold Machine.applyRuns
  rw [hhead]
  cases r.verdict with
  | analysed => exact (h.takeLine set _).takeBandOutcome set _ _ _
  | seed => exact h
  | warmup => exact h
  | obscured => exact h

theorem applyRecord {a : Analysis} (h : Beside (aloneApart q) a.chan s t) (count : Word32) (v : FinalVerdict) :
    Beside (aloneApart q) a.chan (applyRecord a count v s) (applyRecord a count v t) := by
  have hrecord : Beside (aloneApart q) a.chan (Machine.modRecord a.chan (completedRecord v a.role count) s)
      (Machine.modRecord a.chan (completedRecord v a.role count) t) := by
    refine h.modChan (fun ch => { ch with record := completedRecord v a.role count ch.record }) ?_
    cases v with
    | seed => rfl
    | warmup => rfl
    | obscured => rfl
    | analysed => rfl
  unfold Machine.applyRecord
  simp only
  split
  · exact hrecord.modCounters _ _
  · exact hrecord

theorem releaseVerdict (h : Beside (aloneApart q) c s t) (e : Fin 2) (r : LineResult) :
    Beside (aloneApart q) c (releaseVerdict c e r s) (releaseVerdict c e r t) := by
  have hof : heldOf t c e = heldOf s c e := by rw [heldOf, h.held]; rfl
  unfold Machine.releaseVerdict
  rw [hof, h.tracks]
  cases heldOf s c e with
  | none => exact h
  | some k =>
    exact (h.releaseList k.txn _).modChan (fun ch => { ch with held := ch.held.filter fun x => decide (x ≠ k) }) rfl

theorem resultOf {a : Analysis} (h : Beside (aloneApart q) a.chan s t) (e : Fin 2) : resultOf a e t = resultOf a e s := by
  have hbackground : (t.chan a.chan).background = (s.chan a.chan).background := by rw [h.chan]; rfl
  rw [Machine.resultOf, h.heldW, h.entry, hbackground]
  rfl

theorem examined {a : Analysis} (h : Beside (aloneApart q) a.chan s t) (e : Fin 2) :
    Beside (aloneApart q) a.chan (examined a e s) (examined a e t) := by
  unfold Machine.examined recorded
  rw [h.resultOf, h.entry]
  exact (((h.applyOutcome _).applyRuns _ _ _).applyRecord _ _).releaseVerdict e _

/-- R16: the retirement takes the entry from both queues. -/
theorem retire (h : Beside (aloneApart q) c s t) (e : Fin 2) (k : Seen) :
    Beside (aloneApart (q.drop 1)) c (retire c e k s) (retire c e k t) := by
  have hz := ((h.clearRun k).addUnseen (contribution k (entryOf (s.chan c).capture e))).blindTest
  unfold Machine.retire
  rw [h.entry]
  generalize Machine.blindTest c (Machine.addUnseen c _ (Machine.clearRun c k s)) = x at hz
  generalize Machine.blindTest c (Machine.addUnseen c _ (Machine.clearRun c k t)) = y at hz
  refine ⟨?_, hz.outside, ?_⟩
  · change y.chans.set c (freedChan e (y.chan c)) = (x.chans.set c (freedChan e (x.chan c))).set c
      ((aloneApart (q.drop 1)).chan ((Machine.modChan c (freedChan e) x).chan c))
    rw [chan_modChan_same, hz.chan, hz.chans, Bank16.set_set, Bank16.set_set]
    match e with
    | 0 => rfl
    | 1 => rfl
  · conv_lhs => unfold Machine.modCapture Machine.modChan Machine.setChan; rw [hz.rest]
    rfl

end Beside

/-- R33, R48: the completion with nothing else due leaves what this one leaves, but for what was due. -/
theorem retired_alone (a : Analysis) (e : Fin 2) (s : State) :
    retired a e (completingAlone a.chan e s) = aloneState [] a.chan (retired a e s) := by
  have hs : Beside (aloneApart [e]) a.chan s (completingAlone a.chan e s) := aloneState_beside [e] a.chan s
  have hretired := (hs.examined e).retire e (verdictSeen (resultOf a e s).verdict)
  rw [retired, hs.resultOf]
  exact beside_aloneState hretired

/-- R48: its end. -/
theorem exec_completingAlone {a : Analysis} (e : Fin 2) {s : State} (ha : s.engine.analysis = some a) :
    exec .analysisCompletion (completingAlone a.chan e s) =
      .next (idleEngine (aloneState [] a.chan (retired a e s))) := by
  have hchan : (completingAlone a.chan e s).chan a.chan = aloneChan [e] (s.chan a.chan) := aloneState_chan [e] a.chan s
  have hexec := exec_completion_alone (a := a) (e := e) (s := completingAlone a.chan e s) ha (by rw [hchan]; rfl)
    (by rw [hchan]; rfl) (by rw [hchan]; rfl) rfl
  rw [retired_alone] at hexec
  rw [serveHead_empty (s := aloneState [] a.chan (retired a e s)) (by rw [aloneState_chan]; rfl)] at hexec
  exact hexec

end Sys2Proof.Machine
end

section
/-! A command that waited for the completion (R33, R180): how it is taken, and the end of the channel command in progress. -/

namespace Sys2Proof.Machine

open Sys2Proof.Safety

/-! ## The channel command in progress (R180) -/

theorem chanCommandOf_some {code : Byte} (h2 : 2 ≤ code.toNat) (h6 : code.toNat ≤ 6) : ∃ k, chanCommandOf code = some k := by
  have hcode : code.toNat = 2 ∨ code.toNat = 3 ∨ code.toNat = 4 ∨ code.toNat = 5 ∨ code.toNat = 6 := by omega
  refine Option.isSome_iff_exists.mp ?_
  unfold chanCommandOf
  obtain h | h | h | h | h := hcode
  all_goals
    rw [h]
    rfl

/-- R180: a channel command ends DONE once no channel keeps it pending. -/
theorem settleCommand_channels_done {r : Running} {s : State} (hr : s.setup.command = .inProgress r) (h2 : 2 ≤ r.code.toNat)
    (h6 : r.code.toNat ≤ 6) (h : NonePending s) :
    (settleCommand s).setup.command = .ready ∧ WordOffered 0x2000 (doneWord r) (settleCommand s) := by
  obtain ⟨k, hk⟩ := chanCommandOf_some h2 h6
  have hdone : commandDone r s = true := by
    rw [commandDone_channels hk rfl, anyPending_eq_false.mpr h]
    rfl
  have hsettled : settleCommand s = endCommand r .done 0 s := by
    rw [settleCommand, hr]
    exact if_pos hdone
  rw [hsettled, ← doneWord_eq]
  exact ⟨congrArg Setup.command (endCommand_rest r .done 0 s).setup, wordOffered_endCommand r .done 0 s⟩

theorem settleCommand_channels_waits {r : Running} {s : State} (hr : s.setup.command = .inProgress r) (h2 : 2 ≤ r.code.toNat)
    (h6 : r.code.toNat ≤ 6) (h : ¬NonePending s) : settleCommand s = s := by
  obtain ⟨k, hk⟩ := chanCommandOf_some h2 h6
  have hpending : anyPending s = true := by
    rw [← Bool.not_eq_false, anyPending_eq_false]
    exact h
  have hdone : commandDone r s = false := by
    rw [commandDone_channels hk rfl, hpending]
    rfl
  rw [settleCommand, hr]
  exact if_neg (by simp [hdone])

/-- From `s` to `t` the blocks that act on a line and on its records are the same. -/
structure SameBlocks (s t : State) : Prop where
  chans : t.chans = s.chans
  engine : t.engine = s.engine
  ring : t.ring = s.ring
  strands : t.strands = s.strands
  list : t.path.list = s.path.list
  status : t.status = s.status

theorem settleCommand_sameBlocks (s : State) : SameBlocks s (settleCommand s) := by
  obtain ⟨k, hoffers, hstatus⟩ := settleCommand_offersOnly s
  exact ⟨hoffers.chans, hoffers.engine, hoffers.ring, hoffers.strands, hoffers.list, hstatus⟩

/-! ## The next line at the head keeps the pending command (R16) -/

theorem actOnHead_pending (c : Chan) (e : Fin 2) (k : LineClass) (s : State) :
    ((actOnHead c e k s).chan c).record.pendingCmd = (s.chan c).record.pendingCmd := by
  have hswitch : ((switchInspecting c s).chan c).record = (s.chan c).record := by
    rw [switchInspecting_eq, chan_setChan_same]
    exact (switchedIfInspecting_rest _).1
  unfold actOnHead
  cases k with
  | toAnalyse =>
    simp only
    split
    · rw [billetHead_eq, chan_setChan_same]
      rfl
    · rfl
  | noBillet =>
    simp only
    split
    · rw [(billetTail_tailed c _).chan, hswitch]
      rfl
    · rfl
  | malformed => exact congrArg ChanRecord.pendingCmd hswitch
  | lamp => exact congrArg ChanRecord.pendingCmd hswitch
  | held => exact congrArg ChanRecord.pendingCmd hswitch
  | reverse => exact congrArg ChanRecord.pendingCmd hswitch

theorem serveHead_pending (c : Chan) (n : Nat) (s : State) :
    ((serveHead c n s).chan c).record.pendingCmd = (s.chan c).record.pendingCmd := by
  induction n generalizing s with
  | zero => rfl
  | succ n ih =>
    unfold serveHead
    split
    · rfl
    · split
      · rfl
      · exact actOnHead_pending c _ _ s
      · obtain ⟨-, -, -, -, hpending, -⟩ := (retire_examines c _ _ (actOnHead c _ _ s)).record
        exact (ih _).trans (hpending.trans (actOnHead_pending c _ _ s))

/-! ## The command taken (R33) -/

section Pending

variable {c : Chan} {k : ChanCommand} {into : ChanState} {r : Running} {v : State}

theorem forgetPending_chan (c : Chan) (s : State) :
    (forgetPending c s).chan c = { s.chan c with record := { (s.chan c).record with pendingCmd := none } } :=
  modRecord_chan_same ..

theorem afterRetirement_pending (hp : (v.chan c).record.pendingCmd = some k) (hd : (v.chan c).record.abandonDue = false)
    (hr : v.setup.command = .inProgress r) (h6 : r.code.toNat ≤ 6) :
    afterRetirement c v = idleEngine (serveHead c 3 (takeCommand c k v)) := by
  have hwaits : resetPartWaits v = false := by
    rw [resetPartWaits, hr]
    simp only [Bool.and_eq_false_iff, decide_eq_false_iff_not]
    omega
  unfold afterRetirement
  simp only
  rw [endAbandoned_none hd, hwaits, takePending, hp]
  rfl

/-- R34: a watching channel that takes STOP or ISOLATE is torn down. -/
theorem takeCommand_downs (hk : Downs k into) (hw : watches v c = true) :
    TearsDown into c (forgetPending c v) (takeCommand c k v) := by
  have htorn : tearsDown into ((forgetPending c v).chan c) = true :=
    tearsDown_iff.mpr (.inl (by rw [Watching, watches, forgetPending_chan]; exact hw))
  rw [takeCommand_eq, if_pos (suits_downs hk _), takeEffect_downs hk, if_pos htorn]
  exact teardown_tearsDown c into _

theorem takeCommand_restart (hw : watches v c = true) : Restarts c (forgetPending c v) (takeCommand c .restart v) := by
  have hsuits : suits .restart (v.chan c).record.state = true := by
    rw [suits, decide_eq_true_eq]
    intro hoff
    rw [watches, hoff] at hw
    cases hw
  rw [takeCommand_eq, if_pos hsuits]
  exact restartChannel_restarts c _

/-- R33: START and START_REPLAY do not suit a watching channel. -/
theorem takeCommand_starts (hk : k = .start ∨ k = .startReplay) (hw : watches v c = true) :
    takeCommand c k v = markPartial (forgetPending c v) := by
  have hoff : (v.chan c).record.state ≠ .off := by
    intro hoff
    rw [watches, hoff] at hw
    cases hw
  rw [takeCommand_eq, if_neg]
  rcases hk with rfl | rfl
  · exact fun h => hoff (decide_eq_true_eq.mp h)
  · exact fun h => hoff (decide_eq_true_eq.mp h)

/-- R180: the command in progress once the channel has taken its part. -/
def shownBy (k : ChanCommand) (r : Running) : Running :=
  if k = .start ∨ k = .startReplay then { r with isPartial := true } else r

/-- R33: the command taken is no longer pending, and no other channel is touched. -/
structure Takes (c : Chan) (k : ChanCommand) (r : Running) (v x : State) : Prop where
  command : x.setup.command = .inProgress (shownBy k r)
  pending : (x.chan c).record.pendingCmd = none
  others : ∀ d, d ≠ c → x.chan d = v.chan d
  engine : x.engine = v.engine

theorem LeavesOthers.takes {x : State} (h : LeavesOthers c (forgetPending c v) x) (hr : v.setup.command = .inProgress r)
    (hk : ¬(k = .start ∨ k = .startReplay)) (hpending : (x.chan c).record.pendingCmd = none) : Takes c k r v x where
  command := by
    rw [h.only.setup, shownBy, if_neg hk]
    exact hr
  pending := hpending
  others d hd := (h.only.others d hd).trans ((forgetPending_leavesOthers c v).only.others d hd)
  engine := h.only.engine

theorem takeCommand_takes (hr : v.setup.command = .inProgress r) (hw : watches v c = true) :
    Takes c k r v (takeCommand c k v) := by
  by_cases hk : k = .start ∨ k = .startReplay
  · obtain ⟨hchans, -, hengine, -, -, -, -, hcommand⟩ := markPartial_rest (forgetPending c v)
    rw [takeCommand_starts hk hw]
    refine ⟨?_, ?_, fun d hd => ?_, hengine⟩
    · rw [hcommand r hr, shownBy, if_pos hk]
    · rw [chan_of_chans hchans, forgetPending_chan]
    · rw [chan_of_chans hchans]
      exact (forgetPending_leavesOthers c v).only.others d hd
  · have hdowns : ∀ into, Downs k into → Takes c k r v (takeCommand c k v) := fun into hinto => by
      have hdown := takeCommand_downs hinto hw
      exact hdown.leaves.takes hr hk (by rw [hdown.chan])
    cases k with
    | start => exact absurd (.inl rfl) hk
    | startReplay => exact absurd (.inr rfl) hk
    | stop => exact hdowns .off (.inl ⟨rfl, rfl⟩)
    | isolate => exact hdowns .passOnly (.inr ⟨rfl, rfl⟩)
    | restart =>
      have hrestart := takeCommand_restart hw
      exact hrestart.leaves.takes hr hk (by rw [hrestart.chan]; rfl)

/-- R180: the command ends DONE at the completion if no other channel keeps it pending. -/
theorem Takes.settled {x : State} (h : Takes c k r v x) (h2 : 2 ≤ r.code.toNat) (h6 : r.code.toNat ≤ 6) :
    ((∀ d, d ≠ c → (v.chan d).record.pendingCmd = none) →
      (settleCommand (idleEngine (serveHead c 3 x))).setup.command = .ready ∧
        WordOffered 0x2000 (doneWord (shownBy k r)) (settleCommand (idleEngine (serveHead c 3 x)))) ∧
    ((∃ d, d ≠ c ∧ (v.chan d).record.pendingCmd ≠ none) →
      (settleCommand (idleEngine (serveHead c 3 x))).setup.command = .inProgress (shownBy k r)) := by
  obtain ⟨y, hy⟩ : ∃ y, y = idleEngine (serveHead c 3 x) := ⟨_, rfl⟩
  have hserved := serveHead_onlyChan c 3 x
  have hcommand : y.setup.command = .inProgress (shownBy k r) := by
    rw [← h.command, ← hserved.setup, hy]
    rfl
  have hpending : (y.chan c).record.pendingCmd = none := by
    rw [← h.pending, ← serveHead_pending c 3 x, hy]
    rfl
  have hothers : ∀ d, d ≠ c → y.chan d = v.chan d := fun d hd => by
    rw [← h.others d hd, ← hserved.others d hd, hy]
    rfl
  have hcode : (shownBy k r).code = r.code := by
    unfold shownBy
    split
    · rfl
    · rfl
  rw [← hcode] at h2 h6
  rw [← hy]
  refine ⟨fun hnone => settleCommand_channels_done hcommand h2 h6 fun d => ?_, fun ⟨d, hd, hsome⟩ => ?_⟩
  · by_cases hd : d = c
    · rw [hd, hpending]
    · rw [hothers d hd, hnone d hd]
  · rw [settleCommand_channels_waits hcommand h2 h6 fun hnone => hsome (by rw [← hothers d hd, hnone d]), hcommand]

end Pending

end Sys2Proof.Machine
end

section
/-! What waited for the completion (R32, R33, R179, R182), told against what the completion leaves with nothing else due. -/

namespace Sys2Proof.Machine

open Sys2Proof.Safety

/-- R48: what a completion that leaves `v` at the retirement leaves with nothing else due: the engine IDLE, the channel's queue empty. -/
def aloneEnd (c : Chan) (v : State) : State := idleEngine (aloneState [] c v)

theorem aloneEnd_chan (c : Chan) (v : State) : (aloneEnd c v).chan c = aloneChan [] (v.chan c) := aloneState_chan [] c v

theorem aloneEnd_others {c d : Chan} (v : State) (hd : d ≠ c) : (aloneEnd c v).chan d = v.chan d := aloneState_others [] v hd

/-! ## The pending command (R33) -/

section Pending

variable {c : Chan} {k : ChanCommand} {into : ChanState} {r : Running} {v x : State}

/-- R48: what the command has left once its completion ends. -/
abbrev endOf (x : State) : State := settleCommand (idleEngine x)

theorem endOf_sameBlocks (x : State) : SameBlocks (idleEngine x) (endOf x) := settleCommand_sameBlocks _

theorem endOf_chan (x : State) (d : Chan) : (endOf x).chan d = x.chan d := chan_of_chans (endOf_sameBlocks x).chans d

theorem aborted_end (hheld : x.path.list = v.path.list.map (abortTxn (v.chan c).held)) :
    AbortedBy (fun d => d = c) (aloneEnd c v) (endOf x) := by
  have hnothing : AbortedBy (fun _ => False) (aloneEnd c v) (aloneEnd c v) :=
    abortedBy_nothing (ws := []) (List.append_nil _).symm (fun w hw => by cases hw) fun _ h => h
  refine (hnothing.step (c := c) rfl ?_).congr fun d => by rw [false_or]
  rw [(endOf_sameBlocks x).list, aloneEnd_chan]
  exact hheld

/-- R34: the teardown, told against the completion alone. -/
theorem TearsDown.tornDown_end (h : TearsDown into c (forgetPending c v) x) : TornDown into c (aloneEnd c v) (endOf x) := by
  have hlist : x.path.list = v.path.list.map (abortTxn (v.chan c).held) := by
    rw [h.list, forgetPending_chan]
    rfl
  refine tornDown_of_tornChan ⟨?_, ?_⟩ ?_ fun j hj y hy hid => (aborted_end hlist).notHeld rfl hj hy hid
  · rw [endOf_chan, aloneEnd_chan, h.chan, forgetPending_chan]
    rfl
  · rw [endOf_chan]
    exact h.episode
  · rw [(endOf_sameBlocks x).strands]
    exact h.noMarks

theorem TearsDown.billetEnded_end (h : TearsDown into c (forgetPending c v) x) (ho : billetOpen v c = true)
    (hends : EndsInTheQueue (aloneEnd c v) c) :
    BilletEnded ((aloneEnd c v).chan c).params ((aloneEnd c v).chan c).band.effPitch .stopped .stopped c (aloneEnd c v) (endOf x)
      (aloneEnd c v).ring := by
  have hopen : billetOpen (forgetPending c v) c = true := by
    rw [← ho]
    exact billetOpen_congr (by rw [forgetPending_chan])
  have hroom : EndsInTheQueue (forgetPending c v) c := by
    rw [EndsInTheQueue, aloneEnd_chan] at hends
    rw [EndsInTheQueue, forgetPending_chan]
    exact hends
  have hended := h.billetEnded hopen hroom
  have hring := billetEnded_ring hended
  rw [forgetPending_chan] at hended
  rw [aloneEnd_chan]
  refine billetEnded_congr hended rfl rfl ?_ ?_ ?_ ?_ ?_ ?_ ?_ rfl ?_ ?_ ?_
  · rw [aloneEnd_chan, forgetPending_chan]; rfl
  · rw [aloneEnd_chan, forgetPending_chan]; rfl
  · rw [aloneEnd_chan, forgetPending_chan]; rfl
  · rw [aloneEnd_chan, forgetPending_chan]; rfl
  · rw [aloneEnd_chan, forgetPending_chan]; rfl
  · rw [aloneEnd_chan, forgetPending_chan]; rfl
  · rw [aloneEnd_chan, forgetPending_chan]; rfl
  · rw [endOf_chan]
  · rw [endOf_chan]
  · exact (endOf_sameBlocks x).ring.trans hring

/-- R36: the restart, told against the completion alone. -/
theorem Restarts.restarted_end (h : Restarts c (forgetPending c v) x) :
    (endOf x).chan c = restarted ((aloneEnd c v).chan c) ∧ (endOf x).status.counters.get c = ChanCounters.zero ∧
      (endOf x).ring = (aloneEnd c v).ring ∧ MarksRemoved (fun d => decide (d = c)) (aloneEnd c v) (endOf x) := by
  have hsame := endOf_sameBlocks x
  refine ⟨?_, ?_, hsame.ring.trans h.ring, ?_⟩
  · rw [endOf_chan, aloneEnd_chan, h.chan, forgetPending_chan]
    rfl
  · rw [hsame.status]
    exact h.counters
  · have hmarks := marksRemoved_step (torn := fun _ => false) (c := c)
      (marksRemoved_none (s := forgetPending c v) (t := forgetPending c v) rfl rfl fun _ => rfl) rfl h.strands h.discarded
    exact marksRemoved_congr hmarks (fun d => (Bool.false_or _).symm) rfl rfl hsame.strands (by rw [hsame.status]; rfl)

/-- R33: START and START_REPLAY leave the watching channel as it is. -/
theorem starts_end (hk : k = .start ∨ k = .startReplay) (hw : watches v c = true) (hd : (v.chan c).record.abandonDue = false)
    (hq : (v.chan c).capture.queue = []) : (endOf (takeCommand c k v)).chan c = (aloneEnd c v).chan c := by
  have hchans := (markPartial_rest (forgetPending c v)).1
  rw [endOf_chan, aloneEnd_chan, takeCommand_starts hk hw, chan_of_chans hchans, forgetPending_chan, aloneChan, ← hd, ← hq]

/-- R33: what the pending command `k` of the watching channel `c` has made of `v` once the completion ends in `t`. -/
structure PendingTaken (c : Chan) (k : ChanCommand) (r : Running) (v t : State) : Prop where
  taken : (v.chan c).capture.queue = [] ∨ (k ≠ .start ∧ k ≠ .startReplay) →
    TakenByWatching k c (aloneEnd c v) t ∧ (∀ d, d ≠ c → t.chan d = v.chan d) ∧ t.engine = (aloneEnd c v).engine
  aborted : k ≠ .start → k ≠ .startReplay → TrailersAborted (fun d => d = c) (aloneEnd c v) t
  marks : k = .restart → t.ring = (aloneEnd c v).ring ∧ MarksRemoved (fun d => decide (d = c)) (aloneEnd c v) t
  ended : (k = .stop ∨ k = .isolate) → billetOpen v c = true → EndsInTheQueue (aloneEnd c v) c →
    BilletEnded ((aloneEnd c v).chan c).params ((aloneEnd c v).chan c).band.effPitch .stopped .stopped c (aloneEnd c v) t
      (aloneEnd c v).ring
  done : (∀ d, d ≠ c → (v.chan d).record.pendingCmd = none) →
    t.setup.command = .ready ∧ WordOffered 0x2000 (doneWord (shownBy k r)) t
  waits : (∃ d, d ≠ c ∧ (v.chan d).record.pendingCmd ≠ none) → t.setup.command = .inProgress (shownBy k r)

theorem Takes.others_end {x : State} (h : Takes c k r v x) :
    (∀ d, d ≠ c → (endOf x).chan d = v.chan d) ∧ (endOf x).engine = (aloneEnd c v).engine := by
  refine ⟨fun d hd => ?_, ?_⟩
  · rw [endOf_chan, h.others d hd]
  · rw [(endOf_sameBlocks x).engine, idleEngine, h.engine]
    rfl

theorem serveHead_end {x : State} (hq : (x.chan c).capture.queue = []) :
    settleCommand (idleEngine (serveHead c 3 x)) = endOf x := by rw [serveHead_empty hq]

section Taken

variable (hr : v.setup.command = .inProgress r) (h2 : 2 ≤ r.code.toNat)
  (h6 : r.code.toNat ≤ 6) (hw : watches v c = true)

include hr h2 h6 hw

theorem pendingTaken_starts (hd : (v.chan c).record.abandonDue = false) (hk : k = .start ∨ k = .startReplay) :
    PendingTaken c k r v (settleCommand (idleEngine (serveHead c 3 (takeCommand c k v)))) := by
  have htakes : Takes c k r v (takeCommand c k v) := takeCommand_takes hr hw
  obtain ⟨hdone, hwaits⟩ := htakes.settled h2 h6
  refine ⟨fun hq => ?_, fun h1 h2 => absurd hk (by simp [h1, h2]), fun h => ?_, fun h => ?_, hdone, hwaits⟩
  · have hqueue := hq.resolve_right fun h => hk.elim h.1 h.2
    have hchan := starts_end hk hw hd hqueue
    rw [serveHead_end (by rw [← endOf_chan, hchan, aloneEnd_chan]; rfl)]
    refine ⟨?_, htakes.others_end⟩
    rcases hk with rfl | rfl
    · exact hchan
    · exact hchan
  · subst h
    exact absurd hk (by simp)
  · rcases hk with rfl | rfl
    · exact absurd h (by simp)
    · exact absurd h (by simp)

theorem pendingTaken_downs (hk : Downs k into) :
    PendingTaken c k r v (settleCommand (idleEngine (serveHead c 3 (takeCommand c k v)))) := by
  have htakes : Takes c k r v (takeCommand c k v) := takeCommand_takes hr hw
  have hdown : TearsDown into c (forgetPending c v) (takeCommand c k v) := takeCommand_downs hk hw
  have hlist : (takeCommand c k v).path.list = v.path.list.map (abortTxn (v.chan c).held) := by
    rw [hdown.list, forgetPending_chan]
    rfl
  obtain ⟨hdone, hwaits⟩ := htakes.settled h2 h6
  rw [serveHead_end (by rw [hdown.chan]; rfl)] at hdone hwaits ⊢
  refine ⟨fun _ => ⟨?_, htakes.others_end⟩, fun _ _ => (aborted_end hlist).trailersAborted, fun h => ?_,
    fun _ => hdown.billetEnded_end, hdone, hwaits⟩
  · rcases hk with ⟨rfl, rfl⟩ | ⟨rfl, rfl⟩
    · exact hdown.tornDown_end
    · exact hdown.tornDown_end
  · subst h
    exact absurd hk (by simp [Downs])

theorem pendingTaken_restart :
    PendingTaken c .restart r v (settleCommand (idleEngine (serveHead c 3 (takeCommand c .restart v)))) := by
  have htakes : Takes c .restart r v (takeCommand c .restart v) := takeCommand_takes hr hw
  have hrestart : Restarts c (forgetPending c v) (takeCommand c .restart v) := takeCommand_restart hw
  have hlist : (takeCommand c .restart v).path.list = v.path.list.map (abortTxn (v.chan c).held) := by
    rw [hrestart.list, forgetPending_chan]
    rfl
  obtain ⟨hdone, hwaits⟩ := htakes.settled h2 h6
  obtain ⟨hchan, hcounters, hring, hmarks⟩ := hrestart.restarted_end
  rw [serveHead_end (by rw [hrestart.chan]; rfl)] at hdone hwaits ⊢
  exact ⟨fun _ => ⟨⟨hchan, hcounters⟩, htakes.others_end⟩, fun _ _ => (aborted_end hlist).trailersAborted,
    fun _ => ⟨hring, hmarks⟩, fun h => absurd h (by simp), hdone, hwaits⟩

/-- R33, R48: a watching channel takes its pending command at the completion. -/
theorem pendingTaken (hp : (v.chan c).record.pendingCmd = some k) (hd : (v.chan c).record.abandonDue = false) :
    PendingTaken c k r v (settleCommand (afterRetirement c v)) := by
  rw [afterRetirement_pending hp hd hr h6]
  cases k with
  | start => exact pendingTaken_starts hr h2 h6 hw hd (.inl rfl)
  | startReplay => exact pendingTaken_starts hr h2 h6 hw hd (.inr rfl)
  | stop => exact pendingTaken_downs hr h2 h6 hw (.inl ⟨rfl, rfl⟩)
  | isolate => exact pendingTaken_downs hr h2 h6 hw (.inr ⟨rfl, rfl⟩)
  | restart => exact pendingTaken_restart hr h2 h6 hw

end Taken

end Pending

end Sys2Proof.Machine
end

section
/-! A billet ending put off, a RESET_PART that waits and an APPLY in progress at a completion (R32, R179, R182). -/

namespace Sys2Proof.Machine

open Sys2Proof.Safety

/-! ## The billet ending put off (R32, log 16) -/

section Abandoned

variable {c : Chan} {v : State}

theorem switched_alone (q : List (Fin 2)) (ch : Channel) : switched (aloneChan q ch) = aloneChan q (switched ch) := by
  obtain ⟨capture, held, record, background, band, tracks, params, waiting⟩ := ch
  cases waiting with
  | none => rfl
  | some p => rfl

theorem switchedIfInspecting_alone (q : List (Fin 2)) (ch : Channel) :
    switchedIfInspecting (aloneChan q ch) = aloneChan q (switchedIfInspecting ch) := by
  unfold switchedIfInspecting
  rw [switched_alone]
  by_cases hstate : ch.record.state = .inspecting
  · rw [if_pos hstate]
    exact if_pos hstate
  · rw [if_neg hstate]
    exact if_neg hstate

theorem switchedIfInspecting_band (ch : Channel) :
    (switchedIfInspecting ch).band.episode = ch.band.episode ∧ (switchedIfInspecting ch).band.prevCentre = ch.band.prevCentre := by
  unfold switchedIfInspecting
  split
  · unfold switched
    cases ch.waiting with
    | none => exact ⟨rfl, rfl⟩
    | some p => exact ⟨rfl, rfl⟩
  · exact ⟨rfl, rfl⟩

/-- R32: what the billet ending put off leaves of the state `v` of the retirement, in `t`. -/
structure EndedLate (c : Chan) (v t : State) : Prop where
  chan : t.chan c =
    { switchedIfInspecting (v.chan c) with
      tracks := []
      band := (t.chan c).band
      record := { settleRecord .waiting (v.chan c).record with
        serial := (t.chan c).record.serial, tallies := (t.chan c).record.tallies } }
  episode : (t.chan c).band.episode.state = .absent
  others : ∀ d, d ≠ c → t.chan d = v.chan d
  engine : t.engine = (aloneEnd c v).engine
  list : t.path.list = v.path.list
  latched : (t.status.words.get c).latched = (v.status.words.get c).latched ||| 512
  ended : EndsInTheQueue (aloneEnd c v) c →
    BilletEnded (switchedIfInspecting ((aloneEnd c v).chan c)).params
      (switchedIfInspecting ((aloneEnd c v).chan c)).band.effPitch .abandoned .abandoned c (aloneEnd c v) t (aloneEnd c v).ring

theorem endAbandoned_givenUp (hd : (v.chan c).record.abandonDue = true) :
    GivenUp c (switchInspecting c v) (endAbandoned c v) := by
  rw [endAbandoned, hd]
  exact abandonBillet_givenUp c _

theorem afterRetirement_abandoned (hd : (v.chan c).record.abandonDue = true) (hp : (v.chan c).record.pendingCmd = none)
    (hr : v.setup.command = .ready) (hq : (v.chan c).capture.queue = []) :
    settleCommand (afterRetirement c v) = idleEngine (endAbandoned c v) := by
  have hgiven := endAbandoned_givenUp hd
  obtain ⟨hrecord, hcapture, -, -, -⟩ := switchedIfInspecting_rest (v.chan c)
  obtain ⟨z, hz⟩ : ∃ z, z = endAbandoned c v := ⟨_, rfl⟩
  rw [← hz] at hgiven
  have hzc := hgiven.chan
  rw [switchInspecting_eq, chan_setChan_same] at hzc
  have hready : z.setup.command = .ready := by
    rw [hgiven.only.setup, ← hr, switchInspecting_eq]
    rfl
  have hwaits : resetPartWaits z = false := by rw [resetPartWaits, hready]
  have hpending : (z.chan c).record.pendingCmd = none := by
    rw [← hp, hzc, hrecord]
    rfl
  have hqueue : (z.chan c).capture.queue = [] := by rw [hzc, hcapture, hq]
  have hafter : afterRetirement c v = idleEngine z := by
    unfold afterRetirement
    simp only
    rw [← hz, hwaits, takePending_none hpending, serveHead_empty hqueue]
    rfl
  rw [hafter, ← hz]
  exact settleCommand_ready (s := idleEngine z) hready

theorem endedLate (hd : (v.chan c).record.abandonDue = true) : EndedLate c v (idleEngine (endAbandoned c v)) := by
  have hgiven := endAbandoned_givenUp hd
  obtain ⟨hrecord, hcapture, htracks, hheld, hbackground⟩ := switchedIfInspecting_rest (v.chan c)
  obtain ⟨w, hw⟩ : ∃ w, w = switchInspecting c v := ⟨_, rfl⟩
  have hweq : w = setChan c (switchedIfInspecting (v.chan c)) v := by rw [hw, switchInspecting_eq]
  have hwc : w.chan c = switchedIfInspecting (v.chan c) := by rw [hweq, chan_setChan_same]
  have hwrest : w.path = v.path ∧ w.engine = v.engine ∧ w.status = v.status ∧ w.ring = v.ring := by
    rw [hweq]
    exact ⟨rfl, rfl, rfl, rfl⟩
  obtain ⟨hwpath, hwengine, hwstatus, hwring⟩ := hwrest
  rw [← hw] at hgiven
  generalize endAbandoned c v = z at hgiven
  refine ⟨?_, hgiven.episode, fun d hd => ?_, ?_, ?_, ?_, fun hends => ?_⟩
  · rw [← hrecord, ← hwc]
    exact hgiven.chan
  · exact (hgiven.only.others d hd).trans (by rw [hweq, chan_setChan_other _ _ hd])
  · rw [idleEngine, hgiven.only.engine, hwengine]
    rfl
  · exact hgiven.list.trans (by rw [hwpath])
  · exact hgiven.latched.trans (by rw [hwstatus])
  · obtain ⟨hep, hprev⟩ := switchedIfInspecting_band (v.chan c)
    rw [aloneEnd_chan, switchedIfInspecting_alone]
    have hroom : EndsInTheQueue w c := by
      rw [EndsInTheQueue, aloneEnd_chan] at hends
      rw [EndsInTheQueue, hwc, hep, hprev, htracks, hwring]
      exact hends
    have hended := hgiven.ended hroom
    have hring := billetEnded_ring hended
    rw [hwc] at hended
    refine billetEnded_congr hended (by rw [hweq]; rfl) (by rw [hweq]; rfl) ?_ ?_ ?_ ?_ ?_ ?_ ?_ (by rw [hwring]; rfl) rfl rfl ?_
    · rw [aloneEnd_chan, hwc, hrecord]; rfl
    · rw [aloneEnd_chan, hwc, hrecord]; rfl
    · rw [aloneEnd_chan, hwc, hrecord]; rfl
    · rw [aloneEnd_chan, hwc, hrecord]; rfl
    · rw [aloneEnd_chan, hwc, hrecord]; rfl
    · rw [aloneEnd_chan, hwc, htracks]; rfl
    · rw [aloneEnd_chan, hwc, hep]; rfl
    · rw [hwring] at hring
      exact hring

end Abandoned

/-! ## A RESET_PART that waits (R182, log 21) -/

theorem blocksReset_congr {s s' t : State} (h : BlocksReset s t) (hparams : ∀ c, (s'.chan c).params = (s.chan c).params)
    (hheld : ∀ c, (s'.chan c).held = (s.chan c).held) (hlist : s'.path.list = s.path.list) (hstrands : s'.strands = s.strands)
    (hring : s'.ring = s.ring) (hgeometry : s'.setup.geometry = s.setup.geometry)
    (hsnapshot : s'.status.snapshot = s.status.snapshot) : BlocksReset s' t := by
  unfold BlocksReset TrailersAborted
  simp only [hparams, hheld, hlist, hstrands, hring, hgeometry, hsnapshot]
  exact h

theorem aloneEnd_parts (c : Chan) (v : State) (d : Chan) :
    ((aloneEnd c v).chan d).params = (v.chan d).params ∧ ((aloneEnd c v).chan d).held = (v.chan d).held := by
  by_cases hd : d = c
  · subst hd
    rw [aloneEnd_chan]
    exact ⟨rfl, rfl⟩
  · rw [aloneEnd_others v hd]
    exact ⟨rfl, rfl⟩

/-- R182: the second part at the completion. -/
theorem afterRetirement_reset {c : Chan} {r : Running} {v : State} (hr : v.setup.command = .inProgress r) (hcode : r.code = 8)
    (hwait : v.ring.resetWait = false) (hd : (v.chan c).record.abandonDue = false) :
    BlocksReset (aloneEnd c v) (settleCommand (afterRetirement c v)) ∧
      (settleCommand (afterRetirement c v)).setup.command = .inProgress r := by
  have hwaits : resetPartWaits v = true := by
    rw [resetPartWaits, hr]
    simp only [hcode, hwait]
    rfl
  have hafter : afterRetirement c v = resetSecondPart (idleEngine v) := by
    unfold afterRetirement
    simp only
    rw [endAbandoned_none hd, if_pos hwaits]
  have hcommand : (resetSecondPart (idleEngine v)).setup.command = .inProgress r := by
    rw [resetSecondPart_setup]
    exact hr
  have hdone : commandDone r (resetSecondPart (idleEngine v)) = false := by
    rw [commandDone, hcode]
    rfl
  have hsettled : settleCommand (resetSecondPart (idleEngine v)) = resetSecondPart (idleEngine v) := by
    rw [settleCommand, hcommand]
    exact if_neg (by simp [hdone])
  rw [hafter, hsettled]
  refine ⟨?_, hcommand⟩
  have hreset : BlocksReset (idleEngine v) (resetSecondPart (idleEngine v)) :=
    resetSecondPart_blocksReset rfl (abortedBy_nothing (ws := []) (List.append_nil _).symm (fun w hw => by cases hw) fun _ h => h)
      rfl rfl rfl rfl
  exact blocksReset_congr hreset (fun d => (aloneEnd_parts c v d).1) (fun d => (aloneEnd_parts c v d).2) rfl rfl rfl rfl rfl

/-! ## An APPLY in progress (R179) -/

/-- R179: it stays in progress while a set waits. -/
theorem afterRetirement_apply {c : Chan} {r : Running} {v : State} (hr : v.setup.command = .inProgress r) (hcode : r.code = 1)
    (hd : (v.chan c).record.abandonDue = false) (hp : (v.chan c).record.pendingCmd = none)
    (hq : (v.chan c).capture.queue = []) (hset : ∃ d, (v.chan d).waiting ≠ none) :
    settleCommand (afterRetirement c v) =
      { aloneEnd c v with setup := { (aloneEnd c v).setup with command := .inProgress r } } := by
  have hwaits : resetPartWaits v = false := by
    rw [resetPartWaits, hr]
    simp only [hcode]
    rfl
  have hafter : afterRetirement c v = idleEngine v := by
    unfold afterRetirement
    simp only
    rw [endAbandoned_none hd, hwaits, takePending_none hp, serveHead_empty hq]
    rfl
  have hsame : aloneChan [] (v.chan c) = v.chan c := by rw [aloneChan, ← hp, ← hd, ← hq]
  have hsetup : { v.setup with command := .inProgress r } = v.setup := by rw [← hr]
  rw [hafter, settleCommand_apply_waits (s := idleEngine v) hr hcode hset, aloneEnd, aloneState, hsame]
  have hself : setChan c (v.chan c) { v with setup := { v.setup with command := .ready } } =
      { v with setup := { v.setup with command := .ready } } := setChan_self c { v with setup := { v.setup with command := .ready } }
  rw [hself]
  conv_lhs => rw [idleEngine]
  exact congrArg (fun k => { v with setup := k, engine := { v.engine with analysis := none } }) hsetup.symm

end Sys2Proof.Machine
end

section
/-! ANALYSIS_COMPLETION (R29, R33, R48 to R69, R179, R182): the statement. -/

namespace Sys2Proof.Machine

open Sys2Proof.Safety

section Completion

variable {a : Analysis} {e : Fin 2} {s : State}

/-! ## The verdict words (R19, R48) -/

theorem resultWord_plain {v : FinalVerdict} {bg : Store (Nat × Nat)} (hresult : resultOf a e s = plainResult v bg) (n : Nat)
    {k : Word64} (hk : resultWord (plainResult v bg) n = k) : resultWord (resultOf a e s) n = k := by rw [hresult, hk]

/-- R48, R62: the word of an ordinary line. -/
theorem resultWord_ordinary (hrole : a.role = .ordinary)
    (hline : ¬ObscuredLine (heldW s) a.params.chan (pixel (entryOf (s.chan a.chan).capture e))) (n : Nat) :
    resultWord (resultOf a e s) n =
      analysedWord (resultOf a e s).flags (resultOf a e s).fed.length n
        (darkColumns (heldW s) a.params.chan (pixel (entryOf (s.chan a.chan).capture e)) (s.chan a.chan).background).length
        (thresholdOf (heldW s) a.params.chan (pixel (entryOf (s.chan a.chan).capture e)) (s.chan a.chan).background) := by
  rw [resultOf_ordinary hrole hline]
  rfl

/-! ## The conditions of an ordinary line (R60, R63) -/

theorem outcomeBits_stuck {r : LineResult} (h : r.flags.stuck = true) : (outcomeBits r).getLsbD 7 = true := by
  unfold outcomeBits
  rw [if_pos h, BitVec.getLsbD_or, BitVec.getLsbD_or]
  simp

theorem outcomeBits_clutter {r : LineResult} (h : r.flags.clutter = true) : (outcomeBits r).getLsbD 6 = true := by
  unfold outcomeBits
  rw [if_pos h, BitVec.getLsbD_or]
  simp

/-- R48: an ordinary line retired, set beside the runs taken from the state before the completion. -/
theorem ordinary_completion {en : Entry} (hv : (resultOf a e s).verdict = .analysed)
    (hq : (s.chan a.chan).capture.queue = [e]) (hen : en = entryOf (s.chan a.chan).capture e)
    (hblind : NotBlind s a.chan (min (en.gap + en.unseenAfter) 65535)) {t u : State}
    (ht : serveHead a.chan 3 (retired a e s) = t)
    (hu : u = runsTaken a.chan a.params (lineTaken a e s) (resultOf a e s).band s) :
    (t.chan a.chan).tracks = (u.chan a.chan).tracks ∧ (t.chan a.chan).band = (u.chan a.chan).band ∧ t.ring = u.ring ∧
      t.strands = u.strands ∧ (t.chan a.chan).record.serial = (u.chan a.chan).record.serial ∧
      (t.chan a.chan).record.tallies =
        { (u.chan a.chan).record.tallies with
          analysed := (t.chan a.chan).record.tallies.analysed
          unseen := (t.chan a.chan).record.tallies.unseen } ∧
      t.status.partCounters = u.status.partCounters ∧ t.status.part.latched = u.status.part.latched ∧
      (t.status.counters.get a.chan).trackFull = (u.status.counters.get a.chan).trackFull ∧
      (t.status.counters.get a.chan).discarded = (u.status.counters.get a.chan).discarded ∧
      (t.status.words.get a.chan).latched.getLsbD 5 = (u.status.words.get a.chan).latched.getLsbD 5 := by
  subst hu
  obtain ⟨-, hrecord, htracks, hband, hring, hstrands, hstatus⟩ := ordinary_retired hv hq hen hblind ht
  have hbeside := ranOn_beside (a := a) (e := e) (s := s) hv
  obtain ⟨hcounters, hpartCounters, hpart, hbit⟩ := hbeside.outside
  rw [htracks, hband, hring, hstrands, hrecord, hstatus, Bank16.get_set_same, hcounters, hbeside.tracks, hbeside.band, hbeside.ring,
    hbeside.strands, hbeside.serial, hbeside.tallies]
  exact ⟨rfl, rfl, rfl, rfl, rfl, rfl, hpartCounters, hpart, rfl, rfl, hbit⟩

/-- R29, R69: the record, the counters and the conditions of an ordinary line. -/
theorem ordinary_counted {en : Entry} (hv : (resultOf a e s).verdict = .analysed)
    (hq : (s.chan a.chan).capture.queue = [e]) (hen : en = entryOf (s.chan a.chan).capture e)
    (hblind : NotBlind s a.chan (min (en.gap + en.unseenAfter) 65535)) {t : State}
    (ht : serveHead a.chan 3 (retired a e s) = t) :
    (t.status.counters.get a.chan).analysed = min ((s.status.counters.get a.chan).analysed + 1) 65535 ∧
      (t.status.counters.get a.chan).unseen =
        min ((s.status.counters.get a.chan).unseen + (en.gap + en.unseenAfter)) 65535 ∧
      (t.status.counters.get a.chan).obscured = (s.status.counters.get a.chan).obscured ∧
      ((resultOf a e s).flags.stuck = true → (t.status.words.get a.chan).latched.getLsbD 7 = true) ∧
      ((resultOf a e s).flags.clutter = true → (t.status.words.get a.chan).latched.getLsbD 6 = true) := by
  obtain ⟨-, -, -, -, -, -, hstatus⟩ := ordinary_retired hv hq hen hblind ht
  obtain ⟨hanalysed, hunseen, hobscured, bits, hlatched⟩ := ranOn_counts (a := a) (e := e) (s := s) hv
  rw [hstatus, Bank16.get_set_same, hlatched]
  refine ⟨congrArg (fun n => min (n + 1) 65535) hanalysed, congrArg (fun n => min (n + (en.gap + en.unseenAfter)) 65535) hunseen,
    hobscured, fun h => ?_, fun h => ?_⟩
  · rw [BitVec.getLsbD_or, BitVec.getLsbD_or, outcomeBits_stuck h, Bool.or_true, Bool.true_or]
  · rw [BitVec.getLsbD_or, BitVec.getLsbD_or, outcomeBits_clutter h, Bool.or_true, Bool.true_or]

/-- R16: the retired line leaves the channel's queue. -/
theorem retired_queue : ((retired a e s).chan a.chan).capture.queue = (s.chan a.chan).capture.queue.drop 1 := by
  obtain ⟨-, -, hcapture, -⟩ := examined_work a e s
  have hfreed : ∀ x : State, ((modChan a.chan (freedChan e) x).chan a.chan).capture.queue = (x.chan a.chan).capture.queue.drop 1 :=
    fun x => by
      rw [chan_modChan_same]
      rfl
  have hblind : ∀ x : State, ((blindTest a.chan x).chan a.chan).capture.queue = (x.chan a.chan).capture.queue := fun x => by
    obtain ⟨-, n, hn⟩ := blindTest_keepsLine a.chan x
    rw [hn]
  have hclear : ∀ k x, ((clearRun a.chan k x).chan a.chan).capture.queue = (x.chan a.chan).capture.queue := fun k x => by
    rw [clearRun_chan, chan_setChan_same]
  rw [retired, retire_eq, hfreed, hblind, unseenAdded_chan]
  change ((clearRun a.chan _ _).chan a.chan).capture.queue.drop 1 = _
  rw [hclear, hcapture]

end Completion

/-- Settles O32: by the role of the analysis, and then by what waited for the completion, told against the same completion alone. -/
theorem seedLineCompletionSeedsTheBackground : Obligations.SeedLineCompletionSeedsTheBackground := by
  refine ⟨fun a e s ha hrole he hp hd hr => ?_, fun a c e en w q bg s ha hrole hc hw hq hbg he hen hp hd hr => ?_,
    fun a c e s ha hc he => ?_⟩
  · obtain ⟨t, ht⟩ : ∃ t, serveHead a.chan 3 (retired a e s) = t := ⟨_, rfl⟩
    have hexec := exec_completion_alone ha he hp hd hr
    rw [ht] at hexec
    obtain ⟨hbackground, hothers, hengine, hreleased⟩ := completion_work a e s (t := idleEngine t) (by rw [ht])
    have hresult := resultOf_seed (e := e) (s := s) hrole
    refine ⟨_, hexec, hengine, fun x hx => ?_, hothers, fun h hh => ?_,
      fun hq hblind => seed_retired (t := t) hrole hq hblind ht⟩
    · rw [hbackground, hresult]
      exact seeded_column _ _ _ _ hx
    · rw [(hreleased h hh).2, resultWord_plain hresult _ (plainWord_eq .seed)]
      rfl
  · subst hc hw hq hbg hen
    obtain ⟨t, ht⟩ : ∃ t, serveHead a.chan 3 (retired a e s) = t := ⟨_, rfl⟩
    have hexec := exec_completion_alone ha he hp hd hr
    rw [ht] at hexec
    obtain ⟨hbackground, hothers, hengine, hreleased⟩ := completion_work a e s (t := idleEngine t) (by rw [ht])
    refine ⟨_, hexec, hengine, hothers, fun hline => ?_, fun hline hwarm => ?_,
      fun r l hline hordinary hresult hl => ?_⟩
    · have hresult := resultOf_obscured (e := e) (s := s) hrole hline
      refine ⟨by rw [hbackground, hresult]; rfl, fun h hh => ?_, fun hq hblind => obscured_retired (t := t) hresult hq rfl hblind ht⟩
      rw [resultWord_plain hresult _ (plainWord_eq .obscured)] at hreleased
      exact hreleased h hh
    · have hresult := resultOf_warmup (e := e) (s := s) hwarm hline
      refine ⟨fun x hx => ?_, fun h hh => ?_, fun hq hblind => warmup_retired (t := t) hresult hq rfl hblind ht⟩
      · rw [hbackground, hresult]
        exact warmed_column _ _ _ _ hx
      · rw [resultWord_plain hresult _ (plainWord_eq .warmup)] at hreleased
        exact hreleased h hh
    · have hfigures := resultOf_ordinary (e := e) (s := s) hordinary hline
      have hsame : r = resultOf a e s := by rw [hresult, hfigures, analyseOrdinary_eq _ _ _ _ hline]
      have hline' : l = lineTaken a e s := by rw [hl, hsame]; rfl
      subst hsame hline'
      have hv : (resultOf a e s).verdict = .analysed := by rw [hfigures]; rfl
      obtain ⟨hclamp, hstuck, hband, hdeep, hclutter, hplain, hmark⟩ := ordinaryResult_figures _ _ _ _ hfigures
      refine ⟨fun x hx => ?_, hclamp, hstuck, hband, hdeep, hclutter, hplain, hmark, fun h hh => ?_, fun hq hblind => ?_⟩
      · rw [hbackground, hfigures]
        exact analysed_column _ _ _ _ hx
      · rw [resultWord_ordinary hordinary hline, ranOn_tracks hv] at hreleased
        exact hreleased h hh
      · obtain ⟨hcapture, hrecord, -⟩ := ordinary_retired (t := t) hv hq rfl hblind ht
        obtain ⟨hanalysed, hunseen, hobscured, hlatchStuck, hlatchClutter⟩ := ordinary_counted (t := t) hv hq rfl hblind ht
        exact ⟨hcapture, (congrArg ChanRecord.state hrecord :), (congrArg ChanRecord.billet hrecord :),
          (congrArg ChanRecord.headCount hrecord :), (congrArg ChanRecord.warmupLeft hrecord :),
          (congrArg ChanRecord.lastAnalysed hrecord :), (congrArg (fun k => k.tallies.analysed) hrecord :),
          (congrArg (fun k => k.tallies.unseen) hrecord :), hanalysed, hunseen, hobscured, hlatchStuck, hlatchClutter,
          fun u hu => ordinary_completion (t := t) hv hq rfl hblind ht hu⟩
  · subst hc
    obtain ⟨v, hv⟩ : ∃ v, v = retired a e s := ⟨_, rfl⟩
    have hkeeps : Examines a.chan s v := hv ▸ retired_examines a e s
    obtain ⟨hstate, -, hbillet, -, hpending, hdue⟩ := hkeeps.record
    have hopen : billetOpen v a.chan = billetOpen s a.chan := hkeeps.billetOpen
    have hsetup : v.setup = s.setup := hkeeps.only.setup
    have hothers : ∀ x, x ≠ a.chan → v.chan x = s.chan x := hkeeps.only.others
    have hqueue : (s.chan a.chan).capture.queue = [e] → (v.chan a.chan).capture.queue = [] := fun hq => by
      rw [hv, retired_queue, hq]
      rfl
    have hexec : exec .analysisCompletion (completingAlone a.chan e s) = .next (aloneEnd a.chan v) := by
      rw [hv]
      exact exec_completingAlone e ha
    refine ⟨_, _, exec_completion ha he, hexec, fun k r hp hd hr h2 h6 hw => ?_, fun hp hd hr hq ho ch hch => ?_,
      fun r hr hp hd => ⟨fun hcode hwait => ?_, fun hcode hq hset => ?_⟩⟩
    all_goals rw [← hv]
    · have hwatch : watches v a.chan = true := by
        rw [← hw, watches, watches, hstate]
      have htaken := pendingTaken (hsetup ▸ hr) h2 h6 hwatch (hpending.trans hp) (hdue.trans hd)
      refine ⟨fun h => ?_, htaken.aborted, htaken.marks, fun hk ho hends => htaken.ended hk (hopen.trans ho) hends,
        fun r' hr' => ⟨fun h => ?_, fun h => ?_⟩⟩
      · obtain ⟨htake, hrest, hengine⟩ := htaken.taken (h.imp_left hqueue)
        exact ⟨htake, fun x hx => (hrest x hx).trans (hothers x hx), hengine⟩
      · rw [hr']
        exact htaken.done fun x hx => by rw [hothers x hx, h x hx]
      · obtain ⟨x, hx, hsome⟩ := h
        rw [hr']
        exact htaken.waits ⟨x, hx, by rw [hothers x hx]; exact hsome⟩
    · have hlate := endedLate (c := a.chan) (v := v) (hdue.trans hd)
      rw [afterRetirement_abandoned (hdue.trans hd) (hpending.trans hp) (by rw [hsetup, hr]) (hqueue hq)]
      obtain ⟨hrecord, hcapture, -, -, hbackground⟩ := switchedIfInspecting_rest (v.chan a.chan)
      have hswitch : ch = switchedIfInspecting ((aloneEnd a.chan v).chan a.chan) := hch
      have hchan := hlate.chan
      generalize idleEngine (endAbandoned a.chan v) = t at hlate hchan
      refine ⟨(congrArg (fun k => k.record.state) hchan :), (congrArg (fun k => k.record.stall) hchan :),
        (congrArg (fun k => k.record.abandon) hchan :), (congrArg (fun k => k.record.abandonDue) hchan :),
        (congrArg (fun k => k.record.billet) hchan :).trans hbillet, (congrArg Channel.tracks hchan :), hlate.episode, ?_, ?_, ?_,
        fun x hx => (hlate.others x hx).trans (hothers x hx), hlate.list, hlate.engine, hlate.latched, fun hends => ?_⟩
      · rw [hchan, hcapture, aloneEnd_chan, aloneChan, ← hqueue hq]
      · rw [hchan, hbackground, aloneEnd_chan]
        rfl
      · rw [hswitch, aloneEnd_chan, switchedIfInspecting_alone, hchan]
        rfl
      · rw [hswitch]
        exact hlate.ended hends
    · have hring : v.ring.resetWait = s.ring.resetWait := by rw [hkeeps.ring]
      exact afterRetirement_reset (hsetup ▸ hr) hcode (hring.trans hwait) (hdue.trans hd)
    · obtain ⟨x, hx⟩ := hset
      refine afterRetirement_apply (hsetup ▸ hr) hcode (hdue.trans hd) (hpending.trans hp) (hqueue hq) ⟨x, ?_⟩
      by_cases hxc : x = a.chan
      · rw [hxc, hkeeps.params.2, ← hxc]
        exact hx
      · rw [hothers x hxc]
        exact hx

end Sys2Proof.Machine
end
